-- ==== Sys2Proof/Word.lean ====
section
/-! DEFINITION. The word types of the block (00_scope.md R5, R9, R12; 30_encoding.md R70) and the storage type of its
two sample buffers (20_memory.md R50, R52). -/

namespace Sys2Proof

/-- An operation word, 32 bits (30_encoding.md R70). -/
abbrev OpWord := BitVec 32

/-- A sample: an unsigned 16-bit count of base ticks (30_encoding.md R79; `W` of 00_scope.md R5). -/
abbrev Sample := BitVec 16

/-- The response a step returns (00_scope.md R9, 30_encoding.md R75). -/
abbrev Response := BitVec 16

/-- A train: a finite sequence of samples, element 0 a mark (00_scope.md R12, 30_encoding.md R79). -/
abbrev Train := List Sample

/-- A text: a finite sequence of 8-bit characters (00_scope.md R12). -/
abbrev Text := List (BitVec 8)

/-- The storage of one sample buffer: (index, sample) pairs, indices strictly rising (`Memory.wf`); an index that is not
listed has not been written since reset. The block has no byte-addressed memory and every access moves one whole
sample (20_memory.md R50, R52), so the cells are 16-bit entries. -/
abbrev Memory := List (Nat × Sample)

/-- The 8-bit code of a character: ASCII (00_scope.md R12, 93_implementation_defined.md G1). -/
def ch (c : Char) : BitVec 8 := BitVec.ofNat 8 c.toNat

/-- A text written as characters. -/
def text (s : List Char) : Text := s.map ch

/-- One bit as a number, for the status words of 30_encoding.md R77 and R78. -/
def bit (b : Bool) : Response := if b then 1 else 0

@[simp] theorem bit_true : bit true = 1 := rfl
@[simp] theorem bit_false : bit false = 0 := rfl

end Sys2Proof
end

