-- ==== Sys2Proof/Config.lean ====
section
/-! DEFINITION. The configuration: the open parameters of 00_scope.md R6, and the free values, which are opaque constants
that nothing can evaluate. -/

namespace Sys2Proof

/-- CARRIER_POLARITY (00_scope.md R6). -/
inductive Polarity where
  | normal
  | inverted
  deriving DecidableEq, Repr

/-- The block's two index spaces (20_memory.md R50). -/
inductive Space where
  | cbuf
  | rbuf
  deriving DecidableEq, Repr

/-- The open parameters of 00_scope.md R6. The model takes them as an argument: they stand in `State.cfg`, no operation
changes them (10_state.md R20), and `configOk` (Machine/Ops.lean) is the list of constraints. -/
structure Config where
  /-- CBUF_DEPTH, in samples. -/
  cbufDepth : Nat
  /-- RBUF_DEPTH, in samples. -/
  rbufDepth : Nat
  /-- PACE: base ticks per sampling tick. -/
  pace : Nat
  /-- TIMEOUT: the silence threshold in base ticks. -/
  timeout : Nat
  /-- TICK_UNITS: time units per base tick. -/
  tickUnits : Nat
  /-- TIME_UNIT, as its length in picoseconds. No rule of the block reads it. -/
  timeUnitPs : Nat
  /-- GAP_UNITS: the inter-transmission delay in time units. -/
  gapUnits : Nat
  /-- CARRIER_PERIOD_UNITS. -/
  carrierPeriodUnits : Nat
  /-- DUTY_ON_UNITS. -/
  dutyOnUnits : Nat
  /-- CARRIER_POLARITY. -/
  carrierPolarity : Polarity
  /-- IN_ACTIVE_HIGH: the electrical level read as asserted. -/
  inActiveHigh : Bool
  deriving DecidableEq, Repr

/-- The configuration of `State.reset`: the nominal values of 00_scope.md R6 where it gives one (base tick
10^6/38000 us, truncated to 26 us); both depths and the polarity, for which it gives none, are ours. DESIGN CHOICE,
unsafe (log 1): no statement rests on it. -/
def Config.nominal : Config where
  cbufDepth := 65535
  rbufDepth := 65535
  pace := 1
  timeout := 1292
  tickUnits := 26
  timeUnitPs := 1000000
  gapUnits := 1000
  carrierPeriodUnits := 26
  dutyOnUnits := 8
  carrierPolarity := .normal
  inActiveHigh := true

/-- FREE VALUE: the n-th `draw16` of a run (00_scope.md R11), what CAP.RDSAMPLE returns for an index that is not below
clen (41_capture.md R141, 93_implementation_defined.md U2, U3). DESIGN CHOICE of form, safe (log 6). -/
opaque Config.draw16 : Nat → Sample

/-- FREE VALUE: what an entry of a buffer holds that has not been written since reset (10_state.md R41,
93_implementation_defined.md U1). DESIGN CHOICE of form, unsafe (log 4). -/
opaque Config.unwrittenEntry : Space → Nat → Sample

end Sys2Proof
end

