-- ==== Sys2Proof/Syntax.lean ====
section
/-! DEFINITION. The sixteen operations of spec/opcode_table.json (30_encoding.md R71), one constructor each, and the agents
that deliver words. -/

namespace Sys2Proof

/-- The agents that deliver operation words (00_scope.md R8, 30_encoding.md R71). CAP and REP, the two other agents, only
receive them. -/
inductive Agent where
  | host
  | env
  deriving DecidableEq, Repr

/-- The operations, in the order of the opcode table. Operands as 30_encoding.md R72: `lvl` is one bit (true is asserted,
or high), `idx` and `val` are 16 bits. -/
inductive Instr where
  | nop
  | capArm
  | capCancel
  | capTick (lvl : Bool)
  | capFault
  | capRdstatus
  | capRdlen
  | capRdsample (idx : BitVec 16)
  | repClear
  | repPush (val : Sample)
  | repStart
  | repFire
  | repFault
  | repRdstatus
  | repRdlen
  | pwrSet (lvl : Bool)
  deriving DecidableEq, Repr

end Sys2Proof
end

