-- ==== Sys2Proof/WellFormed.lean ====
section
/-! DEFINITION. When a delivered word is well-formed (30_encoding.md R71, R73), read straight from the opcode table, apart
from the decoder. An `Instr` needs no check of its own: its operands have the widths of 30_encoding.md R72. -/

namespace Sys2Proof

/-- One row of the table of 30_encoding.md R71: the opcode, the agents of its "issued by" column, and the data bits its
"well-formed data" column allows to be nonzero. -/
structure OpRow where
  op : BitVec 8
  issuers : List Agent
  dataMask : BitVec 16
  deriving DecidableEq, Repr

/-- The table of 30_encoding.md R71. -/
def opTable : List OpRow := [
  ⟨0x00, [.host, .env], 0x0000⟩,
  ⟨0x10, [.host], 0x0000⟩,
  ⟨0x11, [.host], 0x0000⟩,
  ⟨0x12, [.env], 0x0001⟩,
  ⟨0x13, [.env], 0x0000⟩,
  ⟨0x14, [.host], 0x0000⟩,
  ⟨0x15, [.host], 0x0000⟩,
  ⟨0x16, [.host], 0xFFFF⟩,
  ⟨0x20, [.host], 0x0000⟩,
  ⟨0x21, [.host], 0xFFFF⟩,
  ⟨0x22, [.host], 0x0000⟩,
  ⟨0x23, [.env], 0x0000⟩,
  ⟨0x24, [.env], 0x0000⟩,
  ⟨0x25, [.host], 0x0000⟩,
  ⟨0x26, [.host], 0x0000⟩,
  ⟨0x30, [.host], 0x0001⟩]

/-- A row admits a word from an agent: the opcode is the row's, bits 23:16 are 0, no data bit outside the row's mask is
set, and the agent may issue it. -/
def OpRow.admits (r : OpRow) (a : Agent) (w : OpWord) : Bool :=
  decide (w.extractLsb' 24 8 = r.op) && decide (w.extractLsb' 16 8 = 0) &&
    decide (w.extractLsb' 0 16 &&& ~~~ r.dataMask = 0) && r.issuers.contains a

/-- 30_encoding.md R73: the word, delivered by the agent, is well-formed. -/
def wellFormedWord (a : Agent) (w : OpWord) : Bool := opTable.any fun r => r.admits a w

end Sys2Proof
end

