-- ==== Sys2Proof/Decode.lean ====
section
/-! DEFINITION. The decoder, total on 32-bit words and rejecting by name, and the encoder (30_encoding.md R70 to R73,
R83). -/

namespace Sys2Proof

/-- Why a word is not the word of an operation (30_encoding.md R74). -/
inductive Reject where
  /-- The opcode is not in the table of R71. -/
  | reservedOpcode
  /-- Bits 23:16 are not 0. -/
  | reservedBitsSet
  /-- A data bit that the operation does not use is 1. -/
  | dataBitsSet
  deriving DecidableEq, Repr

/-- `op`, bits 31:24 (R70). -/
def opField (w : OpWord) : BitVec 8 := w.extractLsb' 24 8

/-- `rsv`, bits 23:16 (R70). -/
def rsvField (w : OpWord) : BitVec 8 := w.extractLsb' 16 8

/-- `data`, bits 15:0 (R70); also `idx` and `val` (R72). -/
def dataField (w : OpWord) : BitVec 16 := w.extractLsb' 0 16

/-- The decoding of an operation with no operand: data must be 0 (R71). -/
def decodeBare (w : OpWord) (i : Instr) : Except Reject Instr :=
  if dataField w = 0 then .ok i else .error .dataBitsSet

/-- The decoding of an operation whose operand is `lvl` = data[0]: data[15:1] must be 0 (R71, R72). -/
def decodeLevel (w : OpWord) (f : Bool → Instr) : Except Reject Instr :=
  if (dataField w) >>> 1 = 0 then .ok (f ((dataField w).getLsbD 0)) else .error .dataBitsSet

/-- The decoding by opcode of a word whose rsv is 0 (R71). -/
def decodeOp (w : OpWord) : Except Reject Instr :=
  match (opField w).toNat with
  | 0x00 => decodeBare w .nop
  | 0x10 => decodeBare w .capArm
  | 0x11 => decodeBare w .capCancel
  | 0x12 => decodeLevel w .capTick
  | 0x13 => decodeBare w .capFault
  | 0x14 => decodeBare w .capRdstatus
  | 0x15 => decodeBare w .capRdlen
  | 0x16 => .ok (.capRdsample (dataField w))
  | 0x20 => decodeBare w .repClear
  | 0x21 => .ok (.repPush (dataField w))
  | 0x22 => decodeBare w .repStart
  | 0x23 => decodeBare w .repFire
  | 0x24 => decodeBare w .repFault
  | 0x25 => decodeBare w .repRdstatus
  | 0x26 => decodeBare w .repRdlen
  | 0x30 => decodeLevel w .pwrSet
  | _ => .error .reservedOpcode

/-- The decoder: in every defined word rsv is 0 (R71). -/
def decode (w : OpWord) : Except Reject Instr :=
  if rsvField w = 0 then decodeOp w else .error .reservedBitsSet

/-- The "issued by" column of R71. -/
def Instr.mayBeIssuedBy (i : Instr) (a : Agent) : Bool :=
  match i with
  | .nop => true
  | .capTick _ | .capFault | .repFire | .repFault => a == .env
  | .capArm | .capCancel | .capRdstatus | .capRdlen | .capRdsample _ => a == .host
  | .repClear | .repPush _ | .repStart | .repRdstatus | .repRdlen | .pwrSet _ => a == .host

/-- The agent that an operation stream written as text delivers an operation from: HOST for host operations (and for NOP,
which any agent may issue), ENV for the four environment operations (95_test_vectors.md L3). -/
def Instr.agent (i : Instr) : Agent := if i.mayBeIssuedBy .host then .host else .env

/-- The opcode of an operation (R71). -/
def opcode (i : Instr) : BitVec 8 :=
  match i with
  | .nop => 0x00
  | .capArm => 0x10
  | .capCancel => 0x11
  | .capTick _ => 0x12
  | .capFault => 0x13
  | .capRdstatus => 0x14
  | .capRdlen => 0x15
  | .capRdsample _ => 0x16
  | .repClear => 0x20
  | .repPush _ => 0x21
  | .repStart => 0x22
  | .repFire => 0x23
  | .repFault => 0x24
  | .repRdstatus => 0x25
  | .repRdlen => 0x26
  | .pwrSet _ => 0x30

/-- The data field of an operation's word (R71, R72). -/
def operandData (i : Instr) : BitVec 16 :=
  match i with
  | .capTick lvl | .pwrSet lvl => bit lvl
  | .capRdsample idx => idx
  | .repPush val => val
  | .nop | .capArm | .capCancel | .capFault | .capRdstatus | .capRdlen | .repClear | .repStart | .repFire | .repFault
  | .repRdstatus | .repRdlen => 0

/-- The encoder: `op << 24 | data` (R83). -/
def encode (i : Instr) : OpWord := (opcode i).setWidth 32 <<< 24 ||| (operandData i).setWidth 32

/-- The instruction the decoder reads from the table's numbering: bit 0 is the least significant bit of the one 32-bit
word, and the bits above `nbits` are 0. -/
def decodeTableWord (nbits w : Nat) : Option Instr := (decode (BitVec.ofNat 32 (w % 2 ^ nbits))).toOption

end Sys2Proof
end

