-- ==== Sys2Proof/Machine/State.lean ====
section
/-! DEFINITION. The state as plain data: the block (10_state.md R20 to R36), its configuration (00_scope.md R6), and the
interface a run has with the outside (00_scope.md R9, 43_system_and_text.md R212, R214), with State.reset. -/

namespace Sys2Proof.Machine

/-- `cstate` (10_state.md R21). -/
inductive CState where
  | stopped
  | wait
  | count
  | done
  | aborted
  deriving DecidableEq, Repr

/-- `abort_reason` (10_state.md R27). -/
inductive AbortReason where
  | none
  | cancelled
  | periph
  | overflow
  deriving DecidableEq, Repr

/-- `rstate` (10_state.md R28). -/
inductive RState where
  | idle
  | on
  | off
  | gap
  deriving DecidableEq, Repr

/-- `last_result` (10_state.md R34). -/
inductive LastResult where
  | none
  | completed
  | aborted
  deriving DecidableEq, Repr

/-- An event of the output trace (10_state.md R36). -/
inductive TraceEvent where
  | carrierOn
  | carrierOff
  | arm (d : Nat)
  | power (v : Bool)
  deriving DecidableEq, Repr

/-- The capture unit's fields (10_state.md R21 to R27). -/
structure Capture where
  cstate : CState
  level : Bool
  count : Sample
  cbuf : Memory
  clen : BitVec 16
  cancelReq : Bool
  abortReason : AbortReason
  deriving DecidableEq, Repr

/-- The replay unit's fields (10_state.md R28 to R34). -/
structure Replay where
  rstate : RState
  rbuf : Memory
  rlen : BitVec 16
  ridx : BitVec 16
  carrierEn : Bool
  pushOvf : Bool
  lastResult : LastResult
  deriving DecidableEq, Repr

/-- The kinds of decode error (40_codec.md R104; codes 1 and 2 of 60_exceptions.md R241). -/
inductive CodecError where
  | malformedGroupLength
  | invalidHexDigit
  deriving DecidableEq, Repr

/-- A report on the error channel: that it occurred and, for a decode error, its kind (43_system_and_text.md R217). -/
inductive Diagnostic where
  | captureCycleFailed
  | lineRejected (kind : CodecError)
  | trainTooLong
  | trainAborted
  deriving DecidableEq, Repr

/-- Where the HOST stands in CAPTURE_SESSION (43_system_and_text.md R212). -/
inductive CaptureSession where
  /-- Not running, or ended. -/
  | off
  /-- At the top of the loop. -/
  | loop
  /-- Polling CAP.RDSTATUS. -/
  | poll
  /-- The cycle is DONE: about to deliver CAP.RDLEN. -/
  | readLen
  /-- About to deliver the next CAP.RDSAMPLE of `n`, with the samples read so far. -/
  | readSamples (n : Nat) (got : Train)
  deriving DecidableEq, Repr

/-- Where the HOST stands in REPLAY_SESSION (43_system_and_text.md R214). -/
inductive ReplaySession where
  /-- Not running, or ended. -/
  | off
  /-- About to take the next line of the input. -/
  | nextLine
  /-- Polling REP.RDSTATUS before loading the train. -/
  | awaitIdle (train : Train)
  /-- About to deliver REP.CLEAR. -/
  | clear (train : Train)
  /-- About to push the samples left. -/
  | push (rest : Train)
  /-- About to deliver REP.START. -/
  | start
  /-- Polling REP.RDSTATUS until the train and its gap are over. -/
  | awaitEnd
  deriving DecidableEq, Repr

/-- One delivery: what the outside does next to the machine. -/
inductive Delivery where
  /-- An agent delivers an operation word (30_encoding.md R70, R73). -/
  | word (a : Agent) (w : OpWord)
  /-- ENV samples the input line at an electrical level (true is high) and delivers the CAP.TICK of it (30_encoding.md
  R72, 60_exceptions.md R252). -/
  | lineTick (high : Bool)
  /-- The platform resets the block (70_reset_and_hazards.md R270). -/
  | reset
  /-- The HOST starts CAPTURE_SESSION. -/
  | startCapture
  /-- The HOST starts REPLAY_SESSION on an input. -/
  | startReplay (input : Text)
  /-- The operator asks the capture session to stop (43_system_and_text.md R212). -/
  | operatorStop
  /-- The HOST takes the next turn of CAPTURE_SESSION: at most one operation word. -/
  | captureTurn
  /-- The HOST takes the next turn of REPLAY_SESSION: at most one operation word. -/
  | replayTurn
  deriving DecidableEq, Repr

/-- The interface a run has with the outside: what is still to be delivered, what was returned, and the HOST's two
text-port procedures. -/
structure Port where
  /-- The deliveries still to be made, next first (20_memory.md R60). -/
  stream : List Delivery
  /-- The responses, oldest first (70_reset_and_hazards.md R282). -/
  responses : List Response
  captureSession : CaptureSession
  replaySession : ReplaySession
  /-- The operator has asked the capture session to stop. -/
  stopAsked : Bool
  /-- The replay session's input not read yet. -/
  input : Text
  /-- What the output stream has received (43_system_and_text.md R213). -/
  output : Text
  /-- The error channel, oldest first (43_system_and_text.md R217). -/
  diagnostics : List Diagnostic
  deriving DecidableEq, Repr

/-- The whole state. `cap`, `rep`, `pwr` and `trace` are the block's `S = (cap, rep, sys, trace)` (10_state.md R20).
`draws` is the model's own: how many free values have been drawn (log 6). -/
structure State where
  cfg : Config
  cap : Capture
  rep : Replay
  pwr : Bool
  trace : List TraceEvent
  port : Port
  draws : Nat
  deriving DecidableEq, Repr

/-- Why the machine stops with a fault: never. The block has no traps and no operation halts or hangs it
(60_exceptions.md R240), so there is no constructor. -/
inductive Fault
  deriving DecidableEq, Repr

/-- Why there is no next state. -/
inductive Refusal where
  /-- Raised by an arm of exec whose instruction has no meaning yet (none here). Safe. -/
  | notModelled (mnemonic : String)
  /-- Raised by step when the configuration breaks a constraint of 00_scope.md R6, whose own words are that the model
  refuses it (93_implementation_defined.md K1 to K4). Safe. -/
  | configurationOutsideConstraints
  deriving DecidableEq, Repr

/-- The capture unit after reset (10_state.md R41). -/
def Capture.reset : Capture where
  cstate := .stopped
  level := true
  count := 0
  cbuf := []
  clen := 0
  cancelReq := false
  abortReason := .none

/-- The replay unit after reset (10_state.md R41). -/
def Replay.reset : Replay where
  rstate := .idle
  rbuf := []
  rlen := 0
  ridx := 0
  carrierEn := false
  pushOvf := false
  lastResult := .none

/-- The interface before anything has been delivered. DESIGN CHOICE (logs 2, 3, 5). -/
def Port.fresh : Port where
  stream := []
  responses := []
  captureSession := .off
  replaySession := .off
  stopAsked := false
  input := []
  output := []
  diagnostics := []

/-- The machine right after reset under a configuration, which is fixed before reset (70_reset_and_hazards.md R270). -/
def State.resetWith (c : Config) : State where
  cfg := c
  cap := Capture.reset
  rep := Replay.reset
  pwr := false
  trace := []
  port := Port.fresh
  draws := 0

/-- The machine right after reset, under the nominal configuration (log 1). -/
def State.reset : State := State.resetWith Config.nominal

end Sys2Proof.Machine
end

