-- ==== Sys2Proof/Machine/Ops.lean ====
section
/-! DEFINITION. The named operations over the configuration, the buffers and the state, and the capture abort. -/

namespace Sys2Proof.Machine

/-- The outcome of an operation. -/
abbrev Out := Host.Outcome State Fault Refusal

/-- The constraints of 00_scope.md R6 (their breach: 93_implementation_defined.md K1 to K4). -/
def configOk (c : Config) : Bool :=
  decide (1 ≤ c.cbufDepth ∧ c.cbufDepth ≤ 65535) && decide (1 ≤ c.rbufDepth ∧ c.rbufDepth ≤ 65535) &&
  decide (1 ≤ c.pace ∧ c.pace ≤ 65535) && decide (1 ≤ c.timeout ∧ c.timeout + c.pace - 1 ≤ 65535) &&
  decide (1 ≤ c.tickUnits ∧ c.tickUnits ≤ 65536) && decide (c.gapUnits < 2 ^ 32) &&
  decide (1 ≤ c.carrierPeriodUnits) && decide (c.dutyOnUnits ≤ c.carrierPeriodUnits)

/-! ## Buffers -/

/-- The canonical form: indices strictly rising. -/
def Memory.wf : Memory → Bool
  | [] => true
  | (i, _) :: rest => (rest.all fun e => decide (i < e.1)) && Memory.wf rest

/-- The entry at an index, if it has been written since reset. -/
def Memory.read? : Memory → Nat → Option Sample
  | [], _ => none
  | (j, v) :: rest, i => if i = j then some v else Memory.read? rest i

/-- Writing one entry, in canonical form. -/
def Memory.write : Memory → Nat → Sample → Memory
  | [], i, v => [(i, v)]
  | (j, u) :: rest, i, v =>
    if i < j then (i, v) :: (j, u) :: rest
    else if i = j then (i, v) :: rest
    else (j, u) :: Memory.write rest i v

/-- `MemRead(B, i)` (00_scope.md R11). An entry that has not been written since reset is unspecified (10_state.md R41), a
free value; no rule reads one. -/
def memRead (b : Space) (m : Memory) (i : Nat) : Sample := (Memory.read? m i).getD (Config.unwrittenEntry b i)

/-! ## Updates of the state -/

def State.setCap (s : State) (c : Capture) : State := { s with cap := c }
def State.setRep (s : State) (r : Replay) : State := { s with rep := r }
def State.setPwr (s : State) (v : Bool) : State := { s with pwr := v }
def State.setPort (s : State) (p : Port) : State := { s with port := p }

/-- `emit E`: append an event to the output trace (00_scope.md R11, 10_state.md R36). -/
def State.emit (s : State) (e : TraceEvent) : State := { s with trace := s.trace ++ [e] }

/-- `rsp <- v`: the step's response (00_scope.md R9, R11). -/
def State.respond (s : State) (v : Response) : State :=
  { s with port := { s.port with responses := s.port.responses ++ [v] } }

/-- The HOST's capture session moves on (43_system_and_text.md R212). -/
def State.setCaptureSession (s : State) (c : CaptureSession) : State :=
  { s with port := { s.port with captureSession := c } }

/-- The HOST's replay session moves on (43_system_and_text.md R214). -/
def State.setReplaySession (s : State) (r : ReplaySession) : State :=
  { s with port := { s.port with replaySession := r } }

/-- Characters are written to the output stream (43_system_and_text.md R213). -/
def State.writeOut (s : State) (t : Text) : State := { s with port := { s.port with output := s.port.output ++ t } }

/-- A diagnostic is reported on the error channel (43_system_and_text.md R217). -/
def State.report (s : State) (d : Diagnostic) : State :=
  { s with port := { s.port with diagnostics := s.port.diagnostics ++ [d] } }

/-- What is left of the replay session's input. -/
def State.setInput (s : State) (t : Text) : State := { s with port := { s.port with input := t } }

/-- What is left of the deliveries. -/
def State.setStream (s : State) (ds : List Delivery) : State := { s with port := { s.port with stream := ds } }

/-- The operator's wish to stop the capture session (43_system_and_text.md R212). -/
def State.setStopAsked (s : State) (b : Bool) : State := { s with port := { s.port with stopAsked := b } }

/-- One free value has been drawn. -/
def State.drawn (s : State) : State := { s with draws := s.draws + 1 }

/-- End of a step that returns `v`. -/
def answer (v : Response) (s : State) : Out := .next (s.respond v)

/-- The response of the last operation, as the agent that delivered it reads it. -/
def State.lastResponse (s : State) : Response := s.port.responses.getLast?.getD 0

/-- What the delivering agent does with an operation's outcome. -/
def afterwards (o : Out) (f : State → State) : Out :=
  match o with
  | .next s => .next (f s)
  | .fault r => .fault r
  | .refused r => .refused r

/-- A word that is not well-formed is ignored: no state change, no event, response 0x0000 (30_encoding.md R74). -/
def ignoreWord (s : State) : Out := answer 0x0000 s

/-! ## The capture abort and the push step -/

/-- `raise Abort(reason)` (60_exceptions.md R245): the capture unit's one exceptional event. What it keeps is what stood
when the raise ran; the step ends with it. -/
def capAbort (r : AbortReason) (c : Capture) : Capture :=
  { c with cstate := .aborted, abortReason := r, cancelReq := false }

/-- `PUSH(v)` (41_capture.md R137), and what the step goes on with when the push succeeded. A full buffer raises
Abort(OVERFLOW) and writes nothing. -/
def pushSample (depth : Nat) (c : Capture) (v : Sample) (k : Capture → Capture) : Capture :=
  if c.clen.toNat = depth then capAbort .overflow c
  else k { c with cbuf := Memory.write c.cbuf c.clen.toNat v, clen := c.clen + 1 }

/-- The reset event (70_reset_and_hazards.md R270): every field of the block at the value of 10_state.md R41. The
configuration is kept; so is what is outside the block (log 3). -/
def State.resetBlock (s : State) : State :=
  { s with cap := Capture.reset, rep := Replay.reset, pwr := false, trace := [] }

end Sys2Proof.Machine
end

