-- ==== Sys2Proof/Machine/Flags.lean ====
section
/-! DEFINITION. The status words (30_encoding.md R76 to R78) and the derived outputs (10_state.md R37). The block has no
other flags (10_state.md R38). -/

namespace Sys2Proof.Machine

/-- The 3-bit code of `cstate` (10_state.md R21). -/
def CState.code : CState → Response
  | .stopped => 0
  | .wait => 1
  | .count => 2
  | .done => 3
  | .aborted => 4

/-- The 2-bit code of `abort_reason` (10_state.md R27). -/
def AbortReason.code : AbortReason → Response
  | .none => 0
  | .cancelled => 1
  | .periph => 2
  | .overflow => 3

/-- The 2-bit code of `rstate` (10_state.md R28). -/
def RState.code : RState → Response
  | .idle => 0
  | .on => 1
  | .off => 2
  | .gap => 3

/-- The 2-bit code of `last_result` (10_state.md R34). -/
def LastResult.code : LastResult → Response
  | .none => 0
  | .completed => 1
  | .aborted => 2

/-- The numeric code of a decode error (60_exceptions.md R241). -/
def CodecError.code : CodecError → Nat
  | .malformedGroupLength => 1
  | .invalidHexDigit => 2

/-- `CAP_STATUS(S)` (30_encoding.md R77). -/
def capStatus (s : State) : Response :=
  bit s.pwr <<< 7 ||| s.cap.abortReason.code <<< 5 ||| bit s.cap.cancelReq <<< 4 ||| bit s.cap.level <<< 3 |||
    s.cap.cstate.code

/-- `REP_STATUS(S)` (30_encoding.md R78). -/
def repStatus (s : State) : Response :=
  s.rep.lastResult.code <<< 4 ||| bit s.rep.pushOvf <<< 3 ||| bit s.rep.carrierEn <<< 2 ||| s.rep.rstate.code

/-- `cap_active`: a cycle is in WAIT or COUNT (10_state.md R37). -/
def Capture.active (c : Capture) : Bool := c.cstate == .wait || c.cstate == .count

/-- `cap_done`: the capture completion level (10_state.md R37). -/
def Capture.finished (c : Capture) : Bool := c.cstate == .done || c.cstate == .aborted

/-- `rep_busy`, which also means that a one-shot arm is outstanding (10_state.md R37). -/
def Replay.busy (r : Replay) : Bool := r.rstate != .idle

/-! The fields a host reads from a status word (30_encoding.md R76, R78). -/

/-- Bits 2:0 of the capture status word. -/
def statusCState (w : Response) : BitVec 3 := w.extractLsb' 0 3
/-- Bits 6:5 of the capture status word. -/
def statusAbortReason (w : Response) : BitVec 2 := w.extractLsb' 5 2
/-- Bits 1:0 of the replay status word. -/
def statusRState (w : Response) : BitVec 2 := w.extractLsb' 0 2
/-- Bits 5:4 of the replay status word. -/
def statusLastResult (w : Response) : BitVec 2 := w.extractLsb' 4 2

end Sys2Proof.Machine
end

