-- ==== Sys2Proof/Machine/Operands.lean ====
section
/-! DEFINITION. Operand forms that depend on the state or the configuration. The fields of a word are taken in Decode.lean
(30_encoding.md R72). -/

namespace Sys2Proof.Machine

/-- The level ENV delivers for the electrical level of the input line: 1 exactly when the line is at its asserted level
(30_encoding.md R72, 60_exceptions.md R252). -/
def levelOfLine (c : Config) (high : Bool) : Bool := high == c.inActiveHigh

/-- `DUR(v)`: the time-unit view of one sample (42_replay.md, 40_codec.md R107). -/
def duration (c : Config) (v : Sample) : Nat := v.toNat * c.tickUnits

/-- The sample of the replay buffer at an index (42_replay.md R172, R173). -/
def replaySample (s : State) (i : Nat) : Sample := memRead .rbuf s.rep.rbuf i

/-- The operand of CAP.RDSAMPLE is an index below clen (41_capture.md R141). -/
def sampleReadable (c : Capture) (idx : BitVec 16) : Bool := decide (idx.toNat < c.clen.toNat)

end Sys2Proof.Machine
end

