-- ==== Sys2Proof/Machine/Capture.lean ====
section
/-! DEFINITION. The capture unit's operations (41_capture.md R130 to R141). -/

namespace Sys2Proof.Machine

/-- CAP.ARM (R130). -/
def execCapArm (s : State) : Out :=
  if s.cap.active then answer 0x0000 s
  else answer 0x0000 (s.setCap { s.cap with
    cstate := .wait, level := true, count := 0, clen := 0, cancelReq := false, abortReason := .none })

/-- CAP.CANCEL (R131): observed at the next CAP.TICK. -/
def execCapCancel (s : State) : Out :=
  if s.cap.active then answer 0x0000 (s.setCap { s.cap with cancelReq := true }) else answer 0x0000 s

/-- TICK_WAIT(lvl) (R133): the entering tick adds nothing. -/
def tickWait (lvl : Bool) (c : Capture) : Capture :=
  if lvl then { c with cstate := .count, level := true, count := 0 } else c

/-- The timeout check, the last part of TICK_COUNT (R136). -/
def timeoutCheck (cfg : Config) (c : Capture) : Capture :=
  if cfg.timeout ≤ c.count.toNat then pushSample cfg.cbufDepth c c.count fun c' => { c' with cstate := .done } else c

/-- TICK_COUNT(lvl) (R134, R135). -/
def tickCount (cfg : Config) (lvl : Bool) (c : Capture) : Capture :=
  if lvl = c.level then timeoutCheck cfg { c with count := BitVec.ofNat 16 (c.count.toNat + cfg.pace) }
  else pushSample cfg.cbufDepth c c.count fun c' => timeoutCheck cfg { c' with level := !c'.level, count := 0 }

/-- What one sampling tick does to the capture unit (R132; the order of the checks is 60_exceptions.md R243). -/
def tickCapture (cfg : Config) (lvl : Bool) (c : Capture) : Capture :=
  match c.cstate with
  | .stopped | .done | .aborted => c
  | .wait => if c.cancelReq then capAbort .cancelled c else tickWait lvl c
  | .count => if c.cancelReq then capAbort .cancelled c else tickCount cfg lvl c

/-- CAP.TICK lvl (R132). -/
def execCapTick (lvl : Bool) (s : State) : Out := answer 0x0000 (s.setCap (tickCapture s.cfg lvl s.cap))

/-- CAP.FAULT (R138). -/
def execCapFault (s : State) : Out :=
  if s.cap.active then answer 0x0000 (s.setCap (capAbort .periph s.cap)) else answer 0x0000 s

/-- CAP.RDSTATUS (R139). -/
def execCapRdstatus (s : State) : Out := answer (capStatus s) s

/-- CAP.RDLEN (R140). -/
def execCapRdlen (s : State) : Out := answer s.cap.clen s

/-- CAP.RDSAMPLE idx (R141): an index that is not below clen returns a fresh free value. -/
def execCapRdsample (idx : BitVec 16) (s : State) : Out :=
  if sampleReadable s.cap idx then answer (memRead .cbuf s.cap.cbuf idx.toNat) s
  else answer (Config.draw16 s.draws) s.drawn

end Sys2Proof.Machine
end

