-- ==== Sys2Proof/Machine/Replay.lean ====
section
/-! DEFINITION. The replay unit's operations (42_replay.md R170 to R176). -/

namespace Sys2Proof.Machine

/-- REP.CLEAR (R170): ignored while a train is in progress. -/
def execRepClear (s : State) : Out :=
  if s.rep.busy then answer 0x0000 s else answer 0x0000 (s.setRep { s.rep with rlen := 0, pushOvf := false })

/-- REP.PUSH val (R171): a full buffer sets the sticky push_ovf and writes nothing. -/
def execRepPush (val : Sample) (s : State) : Out :=
  if s.rep.busy then answer 0x0000 s
  else if s.rep.rlen.toNat = s.cfg.rbufDepth then answer 0x0000 (s.setRep { s.rep with pushOvf := true })
  else answer 0x0000 (s.setRep { s.rep with
    rbuf := Memory.write s.rep.rbuf s.rep.rlen.toNat val, rlen := s.rep.rlen + 1 })

/-- Begin the mark of the pair at `ridx`: enable the carrier, then arm its on-duration (R172, R173). -/
def beginPair (r : Replay) (s : State) : State :=
  ((s.setRep { r with carrierEn := true, rstate := .on }).emit .carrierOn).emit
    (.arm (duration s.cfg (replaySample s r.ridx.toNat)))

/-- Begin the inter-transmission delay, never scaled (R172, R173). -/
def beginGap (r : Replay) (s : State) : State :=
  (s.setRep { r with rstate := .gap }).emit (.arm s.cfg.gapUnits)

/-- REP.START (R172). -/
def execRepStart (s : State) : Out :=
  if s.rep.busy || s.rep.rlen == 0 || s.rep.pushOvf then answer 0x0000 s
  else if 2 ≤ s.rep.rlen.toNat then answer 0x0000 (beginPair { s.rep with ridx := 0 } s)
  else answer 0x0000 (beginGap { s.rep with ridx := 0 } s)

/-- What an expiry of the armed one-shot does (R173). -/
def fireReplay (s : State) : State :=
  match s.rep.rstate with
  | .idle => s
  | .on =>
    ((s.setRep { s.rep with carrierEn := false, rstate := .off }).emit .carrierOff).emit
      (.arm (duration s.cfg (replaySample s (s.rep.ridx.toNat + 1))))
  | .off =>
    let r := { s.rep with ridx := s.rep.ridx + 2 }
    if r.ridx.toNat + 1 < r.rlen.toNat then beginPair r s else beginGap r s
  | .gap => s.setRep { s.rep with rstate := .idle, lastResult := .completed }

/-- REP.FIRE (R173). -/
def execRepFire (s : State) : Out := answer 0x0000 (fireReplay s)

/-- The carrier is left disabled (R174). -/
def quietCarrier (s : State) : State :=
  if s.rep.carrierEn then (s.setRep { s.rep with carrierEn := false }).emit .carrierOff else s

/-- The replay abort (R174, 60_exceptions.md R246). -/
def replayAbort (s : State) : State :=
  let t := quietCarrier s
  t.setRep { t.rep with rstate := .idle, lastResult := .aborted }

/-- REP.FAULT (R174). -/
def execRepFault (s : State) : Out := if s.rep.busy then answer 0x0000 (replayAbort s) else answer 0x0000 s

/-- REP.RDSTATUS (R175). -/
def execRepRdstatus (s : State) : Out := answer (repStatus s) s

/-- REP.RDLEN (R176). -/
def execRepRdlen (s : State) : Out := answer s.rep.rlen s

end Sys2Proof.Machine
end

