-- ==== Sys2Proof/Machine/System.lean ====
section
/-! DEFINITION. The system operations (43_system_and_text.md R210, R211). -/

namespace Sys2Proof.Machine

/-- NOP (R210). -/
def execNop (s : State) : Out := answer 0x0000 s

/-- PWR.SET lvl (R211): the event is emitted even when the level does not change. -/
def execPwrSet (lvl : Bool) (s : State) : Out := answer 0x0000 ((s.setPwr lvl).emit (.power lvl))

end Sys2Proof.Machine
end

