-- ==== Sys2Proof/Machine/Dispatch.lean ====
section
/-! DEFINITION. One arm per operation of 30_encoding.md R71. -/

namespace Sys2Proof.Machine

def exec (i : Instr) (s : State) : Host.Outcome State Fault Refusal :=
  match i with
  | .nop => Sys2Proof.Machine.execNop s
  | .capArm => Sys2Proof.Machine.execCapArm s
  | .capCancel => Sys2Proof.Machine.execCapCancel s
  | .capTick lvl => Sys2Proof.Machine.execCapTick lvl s
  | .capFault => Sys2Proof.Machine.execCapFault s
  | .capRdstatus => Sys2Proof.Machine.execCapRdstatus s
  | .capRdlen => Sys2Proof.Machine.execCapRdlen s
  | .capRdsample idx => Sys2Proof.Machine.execCapRdsample idx s
  | .repClear => Sys2Proof.Machine.execRepClear s
  | .repPush val => Sys2Proof.Machine.execRepPush val s
  | .repStart => Sys2Proof.Machine.execRepStart s
  | .repFire => Sys2Proof.Machine.execRepFire s
  | .repFault => Sys2Proof.Machine.execRepFault s
  | .repRdstatus => Sys2Proof.Machine.execRepRdstatus s
  | .repRdlen => Sys2Proof.Machine.execRepRdlen s
  | .pwrSet lvl => Sys2Proof.Machine.execPwrSet lvl s

end Sys2Proof.Machine
end

