-- ==== Sys2Proof/Machine/Codec.lean ====
section
/-! DEFINITION. The pulse-train codec: ENCODE, DECODE and TO_TIME_UNITS (40_codec.md R100 to R108). -/

namespace Sys2Proof.Machine

/-- `HEXDIGIT(n)` (R100): upper case. -/
def hexDigit (n : BitVec 4) : BitVec 8 :=
  if n.toNat ≤ 9 then ch '0' + n.setWidth 8 else ch 'A' + (n.setWidth 8 - 10)

/-- `HEX2(b)` (R100): the most significant digit first. -/
def hex2 (b : BitVec 8) : Text := [hexDigit (b.extractLsb' 4 4), hexDigit (b.extractLsb' 0 4)]

/-- `HEXVAL(c)` (R101), `none` for INVALID. -/
def hexVal (c : BitVec 8) : Option (BitVec 4) :=
  if ch '0' ≤ c ∧ c ≤ ch '9' then some ((c - ch '0').setWidth 4)
  else if ch 'A' ≤ c ∧ c ≤ ch 'F' then some ((c - ch 'A' + 10).setWidth 4)
  else if ch 'a' ≤ c ∧ c ≤ ch 'f' then some ((c - ch 'a' + 10).setWidth 4)
  else none

/-- `HEXVAL2(c1 c0)` = 16·HEXVAL(c1) + HEXVAL(c0) (R101). -/
def hexVal2 (c1 c0 : BitVec 8) : Option (BitVec 8) :=
  match hexVal c1, hexVal c0 with
  | some h, some l => some (h ++ l)
  | _, _ => none

/-- The text of one sample: low byte first, high byte second (R102). -/
def encodeSample (v : Sample) : Text := hex2 (v.extractLsb' 0 8) ++ hex2 (v.extractLsb' 8 8)

/-- `ENCODE(T)` (R102). -/
def encodeTrain (t : Train) : Text := t.flatMap encodeSample

/-- One 4-character group of DECODE: the first byte-pair is the low byte (R104). -/
def decodeGroup (a b c d : BitVec 8) : Option Sample :=
  match hexVal2 a b, hexVal2 c d with
  | some lo, some hi => some (hi ++ lo)
  | _, _ => none

/-- The loop of DECODE over the groups (R104). Its last case is a part of a group, which DECODE has excluded. -/
def decodeGroups : Text → Except CodecError Train
  | [] => .ok []
  | a :: b :: c :: d :: rest =>
    match decodeGroup a b c d with
    | some v => (decodeGroups rest).map (v :: ·)
    | none => .error .invalidHexDigit
  | _ => .error .malformedGroupLength

/-- `DECODE(s)` (R104): the length is checked first, and the empty text is malformed. -/
def decodeText (s : Text) : Except CodecError Train :=
  if s.length = 0 ∨ s.length % 4 ≠ 0 then .error .malformedGroupLength else decodeGroups s

/-- `TO_TIME_UNITS(T)` (R107). -/
def toTimeUnits (c : Config) (t : Train) : List Nat := t.map (duration c)

/-- The characters the encoder writes (R81, R103): '0' to '9' and 'A' to 'F'. -/
def upperHex (c : BitVec 8) : Bool :=
  decide (ch '0' ≤ c ∧ c ≤ ch '9') || decide (ch 'A' ≤ c ∧ c ≤ ch 'F')

end Sys2Proof.Machine
end

