-- ==== Sys2Proof/Machine/TextPort.lean ====
section
/-! DEFINITION. The line framing of the text protocol (30_encoding.md R82; 43_system_and_text.md R213 to R215). -/

namespace Sys2Proof.Machine

/-- The newline: the single character LF (R82). -/
def lf : BitVec 8 := 0x0A

/-- The characters STRIP removes: space, HT, LF, VT, FF, CR (R215). -/
def isBlank (c : BitVec 8) : Bool := c == 0x20 || c == 0x09 || c == 0x0A || c == 0x0B || c == 0x0C || c == 0x0D

/-- `STRIP(L)` (R215). -/
def strip (l : Text) : Text := ((l.dropWhile isBlank).reverse.dropWhile isBlank).reverse

/-- The next line of an input and what follows it: the characters up to and excluding the next LF, or all of them when
there is no LF (R214). -/
def takeLine : Text → Text × Text
  | [] => ([], [])
  | c :: cs => if c = lf then ([], cs) else ((c :: (takeLine cs).1), (takeLine cs).2)

/-- What the output stream receives for one completed train (R82, R213). -/
def captureOutput (t : Train) : Text := encodeTrain t ++ [lf, lf]

end Sys2Proof.Machine
end

