-- ==== Sys2Proof/Machine/Session.lean ====
section
/-! DEFINITION. A delivered operation word, and the HOST's two text-port procedures (43_system_and_text.md R212, R214), one
turn at a time: a turn delivers at most one operation word and then moves the procedure on by its response. -/

namespace Sys2Proof.Machine

/-- One delivery of a word by an agent: performed when it is well-formed (30_encoding.md R73), otherwise ignored (R74). -/
def performWord (a : Agent) (w : OpWord) (s : State) : Out :=
  match decode w with
  | .ok i => if i.mayBeIssuedBy a then exec i s else ignoreWord s
  | .error _ => ignoreWord s

/-- The HOST delivers an operation's word. -/
def hostIssues (i : Instr) (s : State) : Out := performWord .host (encode i) s

/-! ## CAPTURE_SESSION (R212) -/

/-- The samples read so far: read the next one, or write the train and start again. -/
def captureRead (n : Nat) (got : Train) (s : State) : State :=
  if got.length < n then s.setCaptureSession (.readSamples n got)
  else (s.writeOut (captureOutput got)).setCaptureSession .loop

/-- What the session does with a CAP.RDSTATUS response: DONE reads the train, ABORTED by a cancel ends the session, any
other ABORTED reports and starts again, anything else polls again. -/
def capturePolled (s : State) : State :=
  if statusCState s.lastResponse = 3 then s.setCaptureSession .readLen
  else if statusCState s.lastResponse = 4 then
    if statusAbortReason s.lastResponse = 1 then s.setCaptureSession .off
    else (s.report .captureCycleFailed).setCaptureSession .loop
  else s

/-- One turn of CAPTURE_SESSION. -/
def captureTurn (s : State) : Out :=
  match s.port.captureSession with
  | .off => .next s
  | .loop =>
    if s.port.stopAsked then .next (s.setCaptureSession .off)
    else afterwards (hostIssues .capArm s) fun t => t.setCaptureSession .poll
  | .poll => afterwards (hostIssues .capRdstatus s) capturePolled
  | .readLen => afterwards (hostIssues .capRdlen s) fun t => captureRead t.lastResponse.toNat [] t
  | .readSamples n got =>
    afterwards (hostIssues (.capRdsample (BitVec.ofNat 16 got.length)) s) fun t =>
      captureRead n (got ++ [t.lastResponse]) t

/-! ## REPLAY_SESSION (R214) -/

/-- What the session does with one line (R214, R216). -/
def replayLine (l : Text) (s : State) : State :=
  if strip l = [] then s
  else
    match decodeText (strip l) with
    | .error kind => s.report (.lineRejected kind)
    | .ok r =>
      if s.cfg.rbufDepth < r.length then s.report .trainTooLong else s.setReplaySession (.awaitIdle r)

/-- Push the samples left, then start. -/
def replayPush (rest : Train) (s : State) : State :=
  match rest with
  | [] => s.setReplaySession .start
  | _ :: _ => s.setReplaySession (.push rest)

/-- What the session does with a REP.RDSTATUS response after REP.START: still busy polls again; an aborted train is
reported; then the next line. -/
def replayPolled (s : State) : State :=
  if statusRState s.lastResponse = 0 then
    if statusLastResult s.lastResponse = 2 then (s.report .trainAborted).setReplaySession .nextLine
    else s.setReplaySession .nextLine
  else s

/-- One turn of REPLAY_SESSION. -/
def replayTurn (s : State) : Out :=
  match s.port.replaySession with
  | .off => .next s
  | .nextLine =>
    match s.port.input with
    | [] => .next (s.setReplaySession .off)
    | c :: cs => .next (replayLine (takeLine (c :: cs)).1 (s.setInput (takeLine (c :: cs)).2))
  | .awaitIdle r =>
    afterwards (hostIssues .repRdstatus s) fun t =>
      if statusRState t.lastResponse = 0 then t.setReplaySession (.clear r) else t
  | .clear r => afterwards (hostIssues .repClear s) (replayPush r)
  | .push [] => .next (s.setReplaySession .start)
  | .push (v :: rest) => afterwards (hostIssues (.repPush v) s) (replayPush rest)
  | .start => afterwards (hostIssues .repStart s) fun t => t.setReplaySession .awaitEnd
  | .awaitEnd => afterwards (hostIssues .repRdstatus s) replayPolled

/-- Starting CAPTURE_SESSION; a session that runs already goes on (log 5). -/
def startCapture (s : State) : State :=
  if s.port.captureSession = .off then (s.setStopAsked false).setCaptureSession .loop else s

/-- Starting REPLAY_SESSION on an input; a session that runs already goes on (log 5). -/
def startReplay (input : Text) (s : State) : State :=
  if s.port.replaySession = .off then (s.setInput input).setReplaySession .nextLine else s

/-! ## One delivery -/

/-- What one delivery does. -/
def deliver (d : Delivery) (s : State) : Out :=
  match d with
  | .word a w => performWord a w s
  | .lineTick high => performWord .env (encode (.capTick (levelOfLine s.cfg high))) s
  | .reset => .next s.resetBlock
  | .startCapture => .next (startCapture s)
  | .startReplay input => .next (startReplay input s)
  | .operatorStop => .next (s.setStopAsked true)
  | .captureTurn => captureTurn s
  | .replayTurn => replayTurn s

/-- The next delivery of the stream. With none left the block waits and every field keeps its value (60_exceptions.md
R256, 70_reset_and_hazards.md R271, R282). -/
def deliverNext (s : State) : Out :=
  match s.port.stream with
  | [] => .next s
  | d :: ds => deliver d (s.setStream ds)

/-- Operations performed one after another (00_scope.md R9), for the laws over several steps (41_capture.md R143, R144;
42_replay.md R177). -/
def execAll (is : List Instr) (s : State) : Out :=
  match is with
  | [] => .next s
  | i :: rest =>
    match exec i s with
    | .next t => execAll rest t
    | .fault r => .fault r
    | .refused r => .refused r

end Sys2Proof.Machine
end

