-- ==== Sys2Proof/Machine/Step.lean ====
section
/-! DEFINITION. One step: the next delivery, under a configuration that meets the constraints (00_scope.md R6, R9). -/

namespace Sys2Proof.Machine

/-- One step. The block fetches nothing: its program is the stream of deliveries (20_memory.md R60). -/
def step (s : State) : Host.Outcome State Fault Refusal :=
  if configOk s.cfg then deliverNext s else .refused .configurationOutsideConstraints

/-- `s` with a table word as the next delivery, from an agent that may issue it (log 2). -/
def State.withFetchWord (s : State) (nbits w : Nat) : State :=
  let word : OpWord := BitVec.ofNat 32 (w % 2 ^ nbits)
  let agent : Agent :=
    match decode word with
    | .ok i => i.agent
    | .error _ => .host
  s.setStream (.word agent word :: s.port.stream)

end Sys2Proof.Machine
end

