-- ==== Sys2Proof/Machine/Assembler.lean ====
section
/-! DEFINITION. The assembler syntax and the pseudo-operations (30_encoding.md R83, R84). -/

namespace Sys2Proof.Machine

/-- What one line of an operation stream stands for. -/
inductive AsmItem where
  | op (i : Instr)
  /-- The directive RESET: the reset event (R83). -/
  | reset
  | capTicks (lvl : Bool) (n : Nat)
  | repLoad (vs : Train)
  | repFires (n : Nat)
  deriving DecidableEq, Repr

/-- The delivery of one operation, from the agent of 95_test_vectors.md L3. -/
def opDelivery (i : Instr) : Delivery := .word i.agent (encode i)

/-- The deliveries an item expands to (R84). -/
def AsmItem.expand : AsmItem → List Delivery
  | .op i => [opDelivery i]
  | .reset => [.reset]
  | .capTicks lvl n => List.replicate n (opDelivery (.capTick lvl))
  | .repLoad vs => opDelivery .repClear :: vs.map fun v => opDelivery (.repPush v)
  | .repFires n => List.replicate n (opDelivery .repFire)

/-- The pieces of a text between the separators. -/
def splitOn (sep : BitVec 8) : Text → List Text
  | [] => [[]]
  | c :: cs =>
    match splitOn sep cs with
    | [] => [[c]]
    | t :: ts => if c = sep then [] :: t :: ts else (c :: t) :: ts

/-- The value of digits in a base, most significant first. -/
def digitsValue (base acc : Nat) : List (Option (BitVec 4)) → Option Nat
  | [] => some acc
  | none :: _ => none
  | some d :: ds => if d.toNat < base then digitsValue base (acc * base + d.toNat) ds else none

/-- An operand: decimal, or hexadecimal after `0x` (R83). DESIGN CHOICE (log 12): leading zeros are allowed, and hexadecimal
digits of either case. -/
def parseNumber (t : Text) : Option Nat :=
  match t with
  | [] => none
  | [c] => digitsValue 10 0 [hexVal c]
  | a :: b :: rest =>
    if a = ch '0' ∧ b = ch 'x' then if rest = [] then none else digitsValue 16 0 (rest.map hexVal)
    else digitsValue 10 0 ((a :: b :: rest).map hexVal)

/-- A level operand: 0 or 1 (R83). -/
def parseLevel (t : Text) : Option Bool :=
  match parseNumber t with
  | some 0 => some false
  | some 1 => some true
  | _ => none

/-- An index or a sample value: 0 to 65535 (R83). -/
def parseSample (t : Text) : Option Sample :=
  match parseNumber t with
  | some n => if n < 65536 then some (BitVec.ofNat 16 n) else none
  | none => none

/-- The operations with no operand, by mnemonic (R71). -/
def bareMnemonics : List (Text × AsmItem) := [
  (text "NOP".toList, .op .nop), (text "CAP.ARM".toList, .op .capArm), (text "CAP.CANCEL".toList, .op .capCancel),
  (text "CAP.FAULT".toList, .op .capFault), (text "CAP.RDSTATUS".toList, .op .capRdstatus),
  (text "CAP.RDLEN".toList, .op .capRdlen), (text "REP.CLEAR".toList, .op .repClear),
  (text "REP.START".toList, .op .repStart), (text "REP.FIRE".toList, .op .repFire),
  (text "REP.FAULT".toList, .op .repFault), (text "REP.RDSTATUS".toList, .op .repRdstatus),
  (text "REP.RDLEN".toList, .op .repRdlen), (text "RESET".toList, .reset)]

/-- A line with one operand (R71, R83, R84). -/
def parseOneOperand (m t : Text) : Option AsmItem :=
  if m = text "CAP.TICK".toList then (parseLevel t).map fun l => .op (.capTick l)
  else if m = text "PWR.SET".toList then (parseLevel t).map fun l => .op (.pwrSet l)
  else if m = text "CAP.RDSAMPLE".toList then (parseSample t).map fun v => .op (.capRdsample v)
  else if m = text "REP.PUSH".toList then (parseSample t).map fun v => .op (.repPush v)
  else if m = text "REP.LOAD".toList then (parseSample t).map fun v => .repLoad [v]
  else if m = text "REP.FIRES".toList then (parseNumber t).map .repFires
  else none

/-- A line with several operands: only the pseudo-operations of R84 have any. -/
def parseOperands (m : Text) (ts : List Text) : Option AsmItem :=
  if m = text "REP.LOAD".toList then (ts.mapM parseSample).map .repLoad
  else if m = text "CAP.TICKS".toList then
    match ts with
    | [l, n] =>
      match parseLevel l, parseNumber n with
      | some lvl, some k => some (.capTicks lvl k)
      | _, _ => none
    | _ => none
  else none

/-- The operands after a mnemonic, separated by commas (R84). DESIGN CHOICE (log 12): white space around a comma is dropped, an
empty operand is outside the syntax. -/
def operandTexts (t : Text) : List Text :=
  if strip t = [] then [] else (splitOn (ch ',') t).map strip

/-- One line: `none` when it is outside the syntax, no item when it is blank or a comment (R83). DESIGN CHOICE (log 12): R83
speaks of white space between the mnemonic and the operand only; white space before the mnemonic and at the end of the line
is dropped and the line is accepted. -/
def parseLine (l : Text) : Option (List AsmItem) :=
  let t := strip (l.takeWhile fun c => c != ch ';')
  if t = [] then some []
  else
    let m := t.takeWhile fun c => !isBlank c
    let item :=
      match operandTexts (t.dropWhile fun c => !isBlank c) with
      | [] => (bareMnemonics.find? fun (p : Text × AsmItem) => p.1 == m).map Prod.snd
      | [o] => parseOneOperand m o
      | os => parseOperands m os
    item.map fun i => [i]

/-- The deliveries of an operation stream written as text, one operation a line (R83). DESIGN CHOICE (log 12): R83 does not
say what a stream with a line outside the syntax stands for; here the whole text then stands for nothing (`none`), rather
than for its other lines. Lines are what stands between LFs. -/
def assemble (t : Text) : Option (List Delivery) :=
  ((splitOn lf t).mapM parseLine).map fun items => items.flatten.flatMap AsmItem.expand

end Sys2Proof.Machine
end

