-- ==== Sys2Proof/Machine/Collaborators.lean ====
section
/-! DEFINITION. What the spec says of the block's collaborators (60_exceptions.md R249 to R252): the carrier generator's
waveform, the contracts the environment keeps, and what a host does before and after a run (70_reset_and_hazards.md R272,
R282). No rule of the block reads any of it. -/

namespace Sys2Proof.Machine

/-- The carrier generator is enabled from a CarrierOn event until the next CarrierOff (R251). -/
def carrierAfter (trace : List TraceEvent) : Bool :=
  trace.foldl (fun on e => match e with
    | .carrierOn => true
    | .carrierOff => false
    | .arm _ | .power _ => on) false

/-- The generator is at its active level at `t` time units after the CarrierOn. The phase is unspecified (R251,
93_implementation_defined.md U6), so it is an argument (log 8). -/
def waveActive (c : Config) (phase t : Nat) : Bool := decide ((phase + t) % c.carrierPeriodUnits < c.dutyOnUnits)

/-- The electrical level the generator drives: active is high for NORMAL polarity and low for INVERTED, and its inactive
level while it is disabled (R251). -/
def waveLevel (c : Config) (enabled : Bool) (phase t : Nat) : Bool :=
  match c.carrierPolarity with
  | .normal => enabled && waveActive c phase t
  | .inverted => !(enabled && waveActive c phase t)

/-- The tick period in time units (R249). -/
def tickPeriodUnits (c : Config) : Nat := c.pace * c.tickUnits

/-- The environment keeps its contract at a delivery (R246, R250): an expiry or a replay fault comes only while an arm is
outstanding. The block's own rules do not need it (log 9). -/
def keepsContract (s : State) (d : Delivery) : Bool :=
  match d with
  | .word .env w =>
    match decode w with
    | .ok .repFire => s.rep.busy
    | .ok .repFault => s.rep.busy
    | _ => true
  | _ => true

/-- The boot sequence before a capture: reset, power for the receiver, and CAP.ARM once it has settled
(70_reset_and_hazards.md R272). -/
def bootForCapture : List Delivery :=
  [.reset, .word .host (encode (.pwrSet true)), .word .host (encode .capArm)]

/-- A run has ended when its stream has been delivered (70_reset_and_hazards.md R282). -/
def State.ended (s : State) : Bool := s.port.stream.isEmpty

end Sys2Proof.Machine
end

