-- ==== Sys2Proof/Safety.lean ====
section
/-! DEFINITION. What counts as a sound state: the invariants of 10_state.md R39 and R40 with what they need to be
inductive, those of the output trace (R36), and the terms in which the statements say what an operation leaves alone. -/

namespace Sys2Proof.Machine

/-- The captured sample at an index (41_capture.md R141). -/
def State.captured (s : State) (i : Nat) : Sample := memRead .cbuf s.cap.cbuf i

/-- The train in the capture buffer, `[cbuf[0], ..., cbuf[clen-1]]` (41_capture.md R142). -/
def State.capturedTrain (s : State) : Train := (List.range s.cap.clen.toNat).map s.captured

/-- A buffer of a depth whose first `n` entries have been written: canonical, every index below the depth (20_memory.md
R50), every index below `n` listed. -/
structure BufferInv (m : Memory) (depth n : Nat) : Prop where
  form : Memory.wf m = true
  range : ∀ e ∈ m, e.1 < depth
  written : ∀ i, i < n → (Memory.read? m i).isSome = true

/-- The capture invariants, 10_state.md R39 (a) to (g), with what makes them inductive. -/
structure CaptureInv (s : State) : Prop where
  buffer : BufferInv s.cap.cbuf s.cfg.cbufDepth s.cap.clen.toNat
  /-- R39 (a). -/
  lenFits : s.cap.clen.toNat ≤ s.cfg.cbufDepth
  /-- R39 (b). -/
  countMultiple : s.cap.count.toNat % s.cfg.pace = 0
  countBound : s.cap.count.toNat ≤ s.cfg.timeout + s.cfg.pace - 1
  /-- R39 (c). -/
  waitEmpty : s.cap.cstate = .wait → s.cap.clen = 0 ∧ s.cap.count = 0
  /-- R39 (d). -/
  countLevel : s.cap.cstate = .count → (s.cap.level = true ↔ s.cap.clen.toNat % 2 = 0)
  countBelow : s.cap.cstate = .count → s.cap.count.toNat < s.cfg.timeout
  /-- While counting, every pushed run is shorter than the timeout; it is what R39 (e) rests on. -/
  countRuns : s.cap.cstate = .count → ∀ i, i < s.cap.clen.toNat → (s.captured i).toNat < s.cfg.timeout
  /-- R39 (e), with the upper bound of 41_capture.md R142 (d). -/
  doneLast : s.cap.cstate = .done → 1 ≤ s.cap.clen.toNat ∧
    s.cfg.timeout ≤ (s.captured (s.cap.clen.toNat - 1)).toNat ∧
    (s.captured (s.cap.clen.toNat - 1)).toNat ≤ s.cfg.timeout + s.cfg.pace - 1
  doneRuns : s.cap.cstate = .done → ∀ i, i < s.cap.clen.toNat - 1 → (s.captured i).toNat < s.cfg.timeout
  /-- The run that timed out is the last element's: a mark when clen is odd (41_capture.md R142 (e)). -/
  doneLevel : s.cap.cstate = .done → (s.cap.level = true ↔ s.cap.clen.toNat % 2 = 1)
  /-- R39 (f). -/
  multiples : ∀ i, i < s.cap.clen.toNat → (s.captured i).toNat % s.cfg.pace = 0
  /-- R39 (g). -/
  cancelActive : s.cap.cancelReq = true → s.cap.cstate = .wait ∨ s.cap.cstate = .count

/-- The replay invariants, 10_state.md R40 (a) to (e), with what the sticky flag stands for (42_replay.md R171). -/
structure ReplayInv (s : State) : Prop where
  buffer : BufferInv s.rep.rbuf s.cfg.rbufDepth s.rep.rlen.toNat
  /-- R40 (a). -/
  lenFits : s.rep.rlen.toNat ≤ s.cfg.rbufDepth
  /-- R40 (b). -/
  ridxEven : s.rep.ridx.toNat % 2 = 0
  /-- R40 (c). -/
  pairLeft : s.rep.rstate = .on ∨ s.rep.rstate = .off → s.rep.ridx.toNat + 1 < s.rep.rlen.toNat
  /-- R40 (d). -/
  carrier : s.rep.carrierEn = true ↔ s.rep.rstate = .on
  /-- R40 (e). -/
  loaded : s.rep.rstate ≠ .idle → 1 ≤ s.rep.rlen.toNat
  overflowed : s.rep.pushOvf = true → s.rep.rlen.toNat = s.cfg.rbufDepth ∧ s.rep.rstate = .idle

/-- The trace: every armed duration is below 2^32 (10_state.md R36), and the carrier is enabled exactly when the last
carrier event is CarrierOn (60_exceptions.md R251). -/
structure TraceInv (s : State) : Prop where
  durations : ∀ d, TraceEvent.arm d ∈ s.trace → d < 2 ^ 32
  carrier : carrierAfter s.trace = s.rep.carrierEn

/-- A sound state. -/
structure State.Inv (s : State) : Prop where
  config : configOk s.cfg = true
  capture : CaptureInv s
  replay : ReplayInv s
  trace : TraceInv s

/-- The same block under the same configuration: only the interface or the draw counter may differ. -/
structure SameBlock (s t : State) : Prop where
  cfg : t.cfg = s.cfg
  cap : t.cap = s.cap
  rep : t.rep = s.rep
  pwr : t.pwr = s.pwr
  trace : t.trace = s.trace

/-- The interface after a step that returned `v`: the response is added, nothing else. -/
def Port.returned (p : Port) (v : Response) : Port := { p with responses := p.responses ++ [v] }

/-- The step returned `v` and changed nothing. -/
def OnlyReturned (s t : State) (v : Response) : Prop := t = { s with port := s.port.returned v }

/-- The step returned `v` and changed nothing outside the capture unit. -/
def OnlyCapture (s t : State) (v : Response) : Prop := t = { s with cap := t.cap, port := s.port.returned v }

/-- The step returned `v` and changed nothing outside the replay unit and the trace. -/
def OnlyReplay (s t : State) (v : Response) : Prop :=
  t = { s with rep := t.rep, trace := t.trace, port := s.port.returned v }

/-- The reset table, 10_state.md R41, without the entries of the buffers, which are unspecified. -/
structure AtReset (t : State) : Prop where
  cstate : t.cap.cstate = .stopped
  level : t.cap.level = true
  count : t.cap.count = 0
  clen : t.cap.clen = 0
  cancelReq : t.cap.cancelReq = false
  abortReason : t.cap.abortReason = .none
  rstate : t.rep.rstate = .idle
  rlen : t.rep.rlen = 0
  ridx : t.rep.ridx = 0
  carrierEn : t.rep.carrierEn = false
  pushOvf : t.rep.pushOvf = false
  lastResult : t.rep.lastResult = .none
  pwr : t.pwr = false
  trace : t.trace = []

/-- The word of an operation and the one agent that may issue it, as the operation's own rule gives them (30_encoding.md
R71). -/
def Issued (a : Agent) (w : OpWord) (i : Instr) : Prop := decode w = .ok i ∧ ∀ b, i.mayBeIssuedBy b = true ↔ b = a

/-- The unit an operation is addressed to: the opcode's high nibble (30_encoding.md R71). -/
def unitOf (i : Instr) : BitVec 4 := (opcode i).extractLsb' 4 4

/-- The constraints of 00_scope.md R6, row by row. -/
structure Constraints (c : Config) : Prop where
  cbufDepth : 1 ≤ c.cbufDepth ∧ c.cbufDepth ≤ 65535
  rbufDepth : 1 ≤ c.rbufDepth ∧ c.rbufDepth ≤ 65535
  pace : 1 ≤ c.pace ∧ c.pace ≤ 65535
  timeout : 1 ≤ c.timeout ∧ c.timeout + c.pace - 1 ≤ 65535
  tickUnits : 1 ≤ c.tickUnits ∧ c.tickUnits ≤ 65536
  gapUnits : c.gapUnits < 2 ^ 32
  carrierPeriodUnits : 1 ≤ c.carrierPeriodUnits
  dutyOnUnits : c.dutyOnUnits ≤ c.carrierPeriodUnits

/-- What a train's replay appends to the trace (42_replay.md R177): four events for each complete pair, then the gap; an
odd last element appears in none. -/
def emission (c : Config) : Train → List TraceEvent
  | on :: off :: rest =>
    .carrierOn :: .arm (on.toNat * c.tickUnits) :: .carrierOff :: .arm (off.toNat * c.tickUnits) :: emission c rest
  | _ => [.arm c.gapUnits]

/-- A sampling tick that begins a run (41_capture.md R143): it enters COUNT from WAIT, or it sees a level change in
COUNT and leaves the unit counting. -/
def BeginsRun (s t : State) (lvl : Bool) : Prop :=
  exec (.capTick lvl) s = .next t ∧ t.cap.cstate = .count ∧
    (s.cap.cstate = .wait ∨ s.cap.cstate = .count ∧ lvl ≠ s.cap.level)

/-- A character that is a hex digit (30_encoding.md R81). -/
def isHexChar (c : BitVec 8) : Bool := upperHex c || decide (ch 'a' ≤ c ∧ c ≤ ch 'f')

/-- A hex digit in upper case. -/
def toUpperHex (c : BitVec 8) : BitVec 8 := if ch 'a' ≤ c ∧ c ≤ ch 'f' then c - 0x20 else c

end Sys2Proof.Machine
end

