-- ==== Sys2Proof/Certificates/Slice0/Obligations.lean ====
section
/-! DEFINITION. The statements about the block, for the provers. A statement that speaks of `State.Inv` or of one of its
parts does so because it would fail only in states no run reaches; `StepKeeps…` and `ResetStatesAreSound` state that the
parts are invariants. -/

open Sys2Proof Sys2Proof.Machine

/-! ## Encoding -/

/-- 30_encoding.md R70 to R72, R83: the word of every operation, with its operand at every value, decodes to it. -/
def Obligations.EncodedOperationDecodesBack : Prop :=
  ∀ i : Instr, decode (encode i) = .ok i

/-- 30_encoding.md R71: each word is the word of at most one operation. -/
def Obligations.DecodedWordEncodesBack : Prop :=
  ∀ (w : OpWord) (i : Instr), decode w = .ok i → encode i = w

/-- 30_encoding.md R71, R73: the decoder and the issuing rule together accept exactly what the opcode table calls
well-formed. -/
def Obligations.AcceptedExactlyWhenWellFormed : Prop :=
  ∀ (a : Agent) (w : OpWord), wellFormedWord a w = true ↔ ∃ i, decode w = .ok i ∧ i.mayBeIssuedBy a = true

/-- 30_encoding.md R71, R83: words written out from the table, and words that are no operation's. -/
def Obligations.WordsOfTheSpecDecode : Prop :=
  decode 0x00000000 = .ok .nop ∧ decode 0x10000000 = .ok .capArm ∧ decode 0x12000001 = .ok (.capTick true) ∧
  decode 0x16000003 = .ok (.capRdsample 3) ∧ decode 0x2100000E = .ok (.repPush 14) ∧
  decode 0x23000000 = .ok .repFire ∧ decode 0x30000000 = .ok (.pwrSet false) ∧
  decode 0x01000000 = .error .reservedOpcode ∧ decode 0x10010000 = .error .reservedBitsSet ∧
  decode 0x12000002 = .error .dataBitsSet

/-! ## The step -/

/-- 00_scope.md R9, 20_memory.md R60: a step performs the delivered word, with the rest of the stream still to come. -/
def Obligations.StepPerformsTheDeliveredWord : Prop :=
  ∀ (s : State) (a : Agent) (w : OpWord) (ds : List Delivery) (i : Instr),
    configOk s.cfg = true → s.port.stream = .word a w :: ds → decode w = .ok i → i.mayBeIssuedBy a = true →
    step s = exec i (s.setStream ds)

/-- The model's choice (log 2): withFetchWord places a table word so that the very next step performs it. -/
def Obligations.TableWordIsPerformedNext : Prop :=
  ∀ (s : State) (nbits w : Nat) (i : Instr), configOk s.cfg = true → decodeTableWord nbits w = some i →
    step (s.withFetchWord nbits w) = exec i s

/-- 30_encoding.md R74: a word that is not well-formed changes no state, emits no event and returns 0x0000; and every
reserved opcode makes a word ill-formed, whoever delivers it. -/
def Obligations.IllFormedWordsAreIgnored : Prop :=
  (∀ (s : State) (a : Agent) (w : OpWord) (ds : List Delivery),
    configOk s.cfg = true → s.port.stream = .word a w :: ds → wellFormedWord a w = false →
    step s = .next { s with port :=
      { s.port with stream := ds, responses := s.port.responses ++ [0x0000] } }) ∧
  (∀ (a : Agent) (w : OpWord), let op := (w.extractLsb' 24 8).toNat
    (0x01 ≤ op ∧ op ≤ 0x0F ∨ 0x17 ≤ op ∧ op ≤ 0x1F ∨ 0x27 ≤ op ∧ op ≤ 0x2F ∨ 0x31 ≤ op) → wellFormedWord a w = false)

/-- 00_scope.md R6: a configuration that breaks a constraint is refused. That under any other every delivery, from every
state, answers a next state is the model's reading of 60_exceptions.md R240 (log 13, DEDUCED); it keeps the configuration,
as 10_state.md R20 says. -/
def Obligations.RefusesExactlyBrokenConfigurations : Prop :=
  ∀ s : State, (¬ Constraints s.cfg → step s = .refused .configurationOutsideConstraints) ∧
    (Constraints s.cfg → ∃ t, step s = .next t ∧ t.cfg = s.cfg)

/-- 60_exceptions.md R256 and 70_reset_and_hazards.md R271 say that the block waits and keeps its fields. That a step with
nothing left to deliver answers the same state is the model's choice (log 2). -/
def Obligations.WaitingBlockKeepsEveryField : Prop :=
  ∀ s : State, configOk s.cfg = true → s.port.stream = [] → step s = .next s

/-- 30_encoding.md R72, 60_exceptions.md R252: sampling the input line delivers the CAP.TICK whose level is 1 exactly when
the line is at its asserted electrical level. -/
def Obligations.LineSampleDeliversTheLogicalLevel : Prop :=
  ∀ (s : State) (high : Bool) (ds : List Delivery),
    configOk s.cfg = true → s.port.stream = .lineTick high :: ds →
    step s = exec (.capTick (decide (high = s.cfg.inActiveHigh))) (s.setStream ds)

/-- 10_state.md R41, 70_reset_and_hazards.md R270: what the reset event writes, whatever the state, and that it keeps the
configuration; and what the state right after reset holds. Nothing is said of the buffers' entries, which are
unspecified. -/
def Obligations.ResetWritesTheResetTable : Prop :=
  (∀ (s : State) (ds : List Delivery), configOk s.cfg = true → s.port.stream = .reset :: ds →
    ∃ t, step s = .next t ∧ AtReset t ∧ t.cfg = s.cfg) ∧
  (∀ c : Config, AtReset (State.resetWith c) ∧ (State.resetWith c).cfg = c) ∧ AtReset State.reset

/-- The model's choice (log 3): the reset event is the block's, so it keeps the interface, with the deliveries still to
come, the responses and the two text sessions, and the number of free values drawn. -/
def Obligations.ResetKeepsTheInterface : Prop :=
  ∀ (s : State) (ds : List Delivery), configOk s.cfg = true → s.port.stream = .reset :: ds →
    ∃ t, step s = .next t ∧ t.port = { s.port with stream := ds } ∧ t.draws = s.draws

/-! ## Capture unit -/

/-- 41_capture.md R130: CAP.ARM starts a cycle with an empty buffer whose old entries stay, unless one is active. -/
def Obligations.CapArmStartsACycle : Prop :=
  Issued .host 0x10000000 .capArm ∧ ∀ s : State, ∃ t, exec .capArm s = .next t ∧ OnlyCapture s t 0x0000 ∧
    ((s.cap.cstate = .wait ∨ s.cap.cstate = .count) → t.cap = s.cap) ∧
    ((s.cap.cstate = .stopped ∨ s.cap.cstate = .done ∨ s.cap.cstate = .aborted) →
      t.cap.cstate = .wait ∧ t.cap.level = true ∧ t.cap.count = 0 ∧ t.cap.clen = 0 ∧ t.cap.cancelReq = false ∧
      t.cap.abortReason = .none ∧ t.cap.cbuf = s.cap.cbuf)

/-- 41_capture.md R131: CAP.CANCEL sets cancel_req in an active cycle and nothing else, so the unit is still in WAIT or
COUNT; in the other states it does nothing. -/
def Obligations.CapCancelRequestsCancellation : Prop :=
  Issued .host 0x11000000 .capCancel ∧ ∀ s : State, ∃ t, exec .capCancel s = .next t ∧ OnlyCapture s t 0x0000 ∧
    ((s.cap.cstate = .wait ∨ s.cap.cstate = .count) → t.cap = { s.cap with cancelReq := true }) ∧
    ((s.cap.cstate = .stopped ∨ s.cap.cstate = .done ∨ s.cap.cstate = .aborted) → t.cap = s.cap)

/-- 41_capture.md R132: a tick with no active cycle is ignored; a tick that observes a cancel aborts with CANCELLED whatever
its level, and keeps level, count, clen and cbuf; any other tick is TICK_WAIT in WAIT and TICK_COUNT in COUNT. -/
def Obligations.CapTickChecksInOrder : Prop :=
  Issued .env 0x12000000 (.capTick false) ∧ Issued .env 0x12000001 (.capTick true) ∧
  ∀ (s : State) (lvl : Bool), ∃ t, exec (.capTick lvl) s = .next t ∧ OnlyCapture s t 0x0000 ∧
    ((s.cap.cstate = .stopped ∨ s.cap.cstate = .done ∨ s.cap.cstate = .aborted) → t.cap = s.cap) ∧
    ((s.cap.cstate = .wait ∨ s.cap.cstate = .count) → s.cap.cancelReq = true →
      t.cap = { s.cap with cstate := .aborted, abortReason := .cancelled, cancelReq := false }) ∧
    (s.cap.cstate = .wait → s.cap.cancelReq = false → t.cap = tickWait lvl s.cap) ∧
    (s.cap.cstate = .count → s.cap.cancelReq = false → t.cap = tickCount s.cfg lvl s.cap)

/-- 41_capture.md R133: in WAIT a negated level stays in WAIT, and the first asserted level enters COUNT with level 1 and
count 0: the entering tick adds nothing. -/
def Obligations.WaitEntersCountOnAsserted : Prop :=
  ∀ s : State, s.cap.cstate = .wait → s.cap.cancelReq = false →
    (∃ t, exec (.capTick false) s = .next t ∧ OnlyReturned s t 0x0000) ∧
    (∃ t, exec (.capTick true) s = .next t ∧ OnlyCapture s t 0x0000 ∧
      t.cap = { s.cap with cstate := .count, level := true, count := 0 })

/-- 41_capture.md R134, R136, R137: a tick at the current level adds PACE to count. Below the timeout that is all. The
tick at which count reaches TIMEOUT pushes the final count, at either level, and ends the cycle: DONE when the buffer has
room, otherwise ABORTED with OVERFLOW and nothing written. -/
def Obligations.SameLevelTickCountsAndTimesOut : Prop :=
  ∀ s : State, configOk s.cfg = true → CaptureInv s → s.cap.cstate = .count → s.cap.cancelReq = false →
    ∃ t, exec (.capTick s.cap.level) s = .next t ∧ OnlyCapture s t 0x0000 ∧
      t.cap.count.toNat = s.cap.count.toNat + s.cfg.pace ∧ t.cap.level = s.cap.level ∧
      (t.cap.count.toNat < s.cfg.timeout → t.cap = { s.cap with count := t.cap.count }) ∧
      (s.cfg.timeout ≤ t.cap.count.toNat → s.cap.clen.toNat < s.cfg.cbufDepth →
        t.cap.cstate = .done ∧ t.cap.clen.toNat = s.cap.clen.toNat + 1 ∧ t.captured s.cap.clen.toNat = t.cap.count ∧
        (∀ j, j ≠ s.cap.clen.toNat → Memory.read? t.cap.cbuf j = Memory.read? s.cap.cbuf j) ∧
        t.cap.cancelReq = false ∧ t.cap.abortReason = s.cap.abortReason) ∧
      (s.cfg.timeout ≤ t.cap.count.toNat → s.cap.clen.toNat = s.cfg.cbufDepth → t.cap =
        { s.cap with cstate := .aborted, abortReason := .overflow, cancelReq := false, count := t.cap.count })

/-- 41_capture.md R135, R137: a level change pushes the run that ended, flips level and restarts count at 0; with a full
buffer it aborts with OVERFLOW, and level and count stay. -/
def Obligations.LevelChangePushesTheRun : Prop :=
  ∀ s : State, configOk s.cfg = true → CaptureInv s → s.cap.cstate = .count → s.cap.cancelReq = false →
    ∃ t, exec (.capTick (!s.cap.level)) s = .next t ∧ OnlyCapture s t 0x0000 ∧
      (s.cap.clen.toNat < s.cfg.cbufDepth → t.cap.cstate = .count ∧ t.cap.level = !s.cap.level ∧ t.cap.count = 0 ∧
        t.cap.clen.toNat = s.cap.clen.toNat + 1 ∧ t.captured s.cap.clen.toNat = s.cap.count ∧
        (∀ j, j ≠ s.cap.clen.toNat → Memory.read? t.cap.cbuf j = Memory.read? s.cap.cbuf j) ∧
        t.cap.cancelReq = false ∧ t.cap.abortReason = s.cap.abortReason) ∧
      (s.cap.clen.toNat = s.cfg.cbufDepth → t.cap =
        { s.cap with cstate := .aborted, abortReason := .overflow, cancelReq := false })

/-- 41_capture.md R138, 60_exceptions.md R245: CAP.FAULT aborts an active cycle with PERIPH, even with a cancel requested,
keeping the buffer and clen; with no active cycle it is ignored. -/
def Obligations.CapFaultAbortsTheCycle : Prop :=
  Issued .env 0x13000000 .capFault ∧ ∀ s : State, ∃ t, exec .capFault s = .next t ∧ OnlyCapture s t 0x0000 ∧
    ((s.cap.cstate = .wait ∨ s.cap.cstate = .count) →
      t.cap = { s.cap with cstate := .aborted, abortReason := .periph, cancelReq := false }) ∧
    ((s.cap.cstate = .stopped ∨ s.cap.cstate = .done ∨ s.cap.cstate = .aborted) → t.cap = s.cap)

/-- 30_encoding.md R76, 41_capture.md R139: every field of the capture status word, and nothing changes. -/
def Obligations.CaptureStatusWordFields : Prop :=
  Issued .host 0x14000000 .capRdstatus ∧ ∀ s : State, ∃ t v, exec .capRdstatus s = .next t ∧ OnlyReturned s t v ∧
    (s.cap.cstate = .stopped → v.extractLsb' 0 3 = 0) ∧ (s.cap.cstate = .wait → v.extractLsb' 0 3 = 1) ∧
    (s.cap.cstate = .count → v.extractLsb' 0 3 = 2) ∧ (s.cap.cstate = .done → v.extractLsb' 0 3 = 3) ∧
    (s.cap.cstate = .aborted → v.extractLsb' 0 3 = 4) ∧
    v.getLsbD 3 = s.cap.level ∧ v.getLsbD 4 = s.cap.cancelReq ∧
    (s.cap.abortReason = .none → v.extractLsb' 5 2 = 0) ∧ (s.cap.abortReason = .cancelled → v.extractLsb' 5 2 = 1) ∧
    (s.cap.abortReason = .periph → v.extractLsb' 5 2 = 2) ∧ (s.cap.abortReason = .overflow → v.extractLsb' 5 2 = 3) ∧
    v.getLsbD 7 = s.pwr ∧ v.extractLsb' 8 8 = 0

/-- 41_capture.md R140, 42_replay.md R176: CAP.RDLEN returns clen, REP.RDLEN returns rlen, and they change nothing. -/
def Obligations.LengthReadsReturnTheLengths : Prop :=
  Issued .host 0x15000000 .capRdlen ∧ Issued .host 0x26000000 .repRdlen ∧
  ∀ s : State, (∃ t, exec .capRdlen s = .next t ∧ OnlyReturned s t s.cap.clen) ∧
    (∃ t, exec .repRdlen s = .next t ∧ OnlyReturned s t s.rep.rlen)

/-- 41_capture.md R141: CAP.RDSAMPLE returns the entry below clen; at any other index it completes with a value of which
nothing is said. No field of the block changes. -/
def Obligations.CapRdsampleReturnsTheEntry : Prop :=
  (∀ idx : BitVec 16, Issued .host (0x16000000 ||| idx.setWidth 32) (.capRdsample idx)) ∧
  ∀ (s : State) (idx : BitVec 16), ∃ t v, exec (.capRdsample idx) s = .next t ∧ SameBlock s t ∧
    t.port = s.port.returned v ∧
    (idx.toNat < s.cap.clen.toNat → t.draws = s.draws ∧ ∀ e, Memory.read? s.cap.cbuf idx.toNat = some e → v = e)

/-! ## Replay unit -/

/-- 42_replay.md R170: REP.CLEAR empties the buffer's length and clears push_ovf in IDLE, keeping last_result; while a
train is in progress it is ignored. -/
def Obligations.RepClearEmptiesTheBuffer : Prop :=
  Issued .host 0x20000000 .repClear ∧ ∀ s : State, ∃ t, exec .repClear s = .next t ∧ OnlyReplay s t 0x0000 ∧
    t.trace = s.trace ∧
    (s.rep.rstate ≠ .idle → t.rep = s.rep) ∧
    (s.rep.rstate = .idle → t.rep = { s.rep with rlen := 0, pushOvf := false })

/-- 42_replay.md R171: REP.PUSH appends in IDLE; on a full buffer it sets push_ovf and writes nothing; while a train is in
progress it is ignored. -/
def Obligations.RepPushAppends : Prop :=
  (∀ val : Sample, Issued .host (0x21000000 ||| val.setWidth 32) (.repPush val)) ∧
  ∀ (s : State) (val : Sample), configOk s.cfg = true → ReplayInv s →
    ∃ t, exec (.repPush val) s = .next t ∧ OnlyReplay s t 0x0000 ∧ t.trace = s.trace ∧
      (s.rep.rstate ≠ .idle → t.rep = s.rep) ∧
      (s.rep.rstate = .idle → s.rep.rlen.toNat = s.cfg.rbufDepth → t.rep = { s.rep with pushOvf := true }) ∧
      (s.rep.rstate = .idle → s.rep.rlen.toNat < s.cfg.rbufDepth →
        t.rep = { s.rep with rbuf := t.rep.rbuf, rlen := t.rep.rlen } ∧ t.rep.rlen.toNat = s.rep.rlen.toNat + 1 ∧
        Memory.read? t.rep.rbuf s.rep.rlen.toNat = some val ∧
        ∀ j, j ≠ s.rep.rlen.toNat → Memory.read? t.rep.rbuf j = Memory.read? s.rep.rbuf j)

/-- 42_replay.md R172: REP.START is ignored while busy, for an empty buffer and for a truncated one; otherwise it begins at
element 0 with the enable before the arm, and a lone mark only waits out the gap. -/
def Obligations.RepStartBeginsTheTrain : Prop :=
  Issued .host 0x22000000 .repStart ∧ ∀ s : State, ∃ t, exec .repStart s = .next t ∧ OnlyReplay s t 0x0000 ∧
    ((s.rep.rstate ≠ .idle ∨ s.rep.rlen = 0 ∨ s.rep.pushOvf = true) → t.rep = s.rep ∧ t.trace = s.trace) ∧
    (s.rep.rstate = .idle → s.rep.pushOvf = false → 2 ≤ s.rep.rlen.toNat →
      t.rep = { s.rep with ridx := 0, carrierEn := true, rstate := .on } ∧
      ∀ v, Memory.read? s.rep.rbuf 0 = some v →
        t.trace = s.trace ++ [.carrierOn, .arm (v.toNat * s.cfg.tickUnits)]) ∧
    (s.rep.rstate = .idle → s.rep.pushOvf = false → s.rep.rlen = 1 →
      t.rep = { s.rep with ridx := 0, rstate := .gap } ∧ t.trace = s.trace ++ [.arm s.cfg.gapUnits])

/-- 42_replay.md R173: what the expiry of the armed one-shot does in each state. -/
def Obligations.RepFireAdvancesTheSequencer : Prop :=
  Issued .env 0x23000000 .repFire ∧ ∀ s : State, configOk s.cfg = true → ReplayInv s →
    ∃ t, exec .repFire s = .next t ∧ OnlyReplay s t 0x0000 ∧
      (s.rep.rstate = .idle → t.rep = s.rep ∧ t.trace = s.trace) ∧
      (s.rep.rstate = .on → t.rep = { s.rep with carrierEn := false, rstate := .off } ∧
        ∀ v, Memory.read? s.rep.rbuf (s.rep.ridx.toNat + 1) = some v →
          t.trace = s.trace ++ [.carrierOff, .arm (v.toNat * s.cfg.tickUnits)]) ∧
      (s.rep.rstate = .off → s.rep.ridx.toNat + 3 < s.rep.rlen.toNat →
        t.rep = { s.rep with ridx := t.rep.ridx, carrierEn := true, rstate := .on } ∧
        t.rep.ridx.toNat = s.rep.ridx.toNat + 2 ∧
        ∀ v, Memory.read? s.rep.rbuf (s.rep.ridx.toNat + 2) = some v →
          t.trace = s.trace ++ [.carrierOn, .arm (v.toNat * s.cfg.tickUnits)]) ∧
      (s.rep.rstate = .off → s.rep.rlen.toNat ≤ s.rep.ridx.toNat + 3 →
        t.rep = { s.rep with ridx := t.rep.ridx, rstate := .gap } ∧ t.rep.ridx.toNat = s.rep.ridx.toNat + 2 ∧
        t.trace = s.trace ++ [.arm s.cfg.gapUnits]) ∧
      (s.rep.rstate = .gap → t.rep = { s.rep with rstate := .idle, lastResult := .completed } ∧ t.trace = s.trace)

/-- 42_replay.md R174: REP.FAULT outside IDLE leaves the carrier disabled, emitting CarrierOff only if it was on, and ends
the train as ABORTED with the buffer and ridx kept; in IDLE it is ignored. -/
def Obligations.RepFaultAbortsTheTrain : Prop :=
  Issued .env 0x24000000 .repFault ∧ ∀ s : State, ∃ t, exec .repFault s = .next t ∧ OnlyReplay s t 0x0000 ∧
    (s.rep.rstate = .idle → t.rep = s.rep ∧ t.trace = s.trace) ∧
    (s.rep.rstate ≠ .idle → t.rep = { s.rep with rstate := .idle, carrierEn := false, lastResult := .aborted } ∧
      t.trace = s.trace ++ (if s.rep.carrierEn then [.carrierOff] else []))

/-- 30_encoding.md R78, 42_replay.md R175: every field of the replay status word, and nothing changes. -/
def Obligations.ReplayStatusWordFields : Prop :=
  Issued .host 0x25000000 .repRdstatus ∧ ∀ s : State, ∃ t v, exec .repRdstatus s = .next t ∧ OnlyReturned s t v ∧
    (s.rep.rstate = .idle → v.extractLsb' 0 2 = 0) ∧ (s.rep.rstate = .on → v.extractLsb' 0 2 = 1) ∧
    (s.rep.rstate = .off → v.extractLsb' 0 2 = 2) ∧ (s.rep.rstate = .gap → v.extractLsb' 0 2 = 3) ∧
    v.getLsbD 2 = s.rep.carrierEn ∧ v.getLsbD 3 = s.rep.pushOvf ∧
    (s.rep.lastResult = .none → v.extractLsb' 4 2 = 0) ∧ (s.rep.lastResult = .completed → v.extractLsb' 4 2 = 1) ∧
    (s.rep.lastResult = .aborted → v.extractLsb' 4 2 = 2) ∧ v.extractLsb' 6 10 = 0

/-! ## System operations -/

/-- 43_system_and_text.md R210: NOP changes no state, emits no event and returns 0x0000. -/
def Obligations.NopChangesNothing : Prop :=
  decode 0x00000000 = .ok .nop ∧ (∀ a, Instr.nop.mayBeIssuedBy a = true) ∧
  ∀ s : State, ∃ t, exec .nop s = .next t ∧ OnlyReturned s t 0x0000

/-- 43_system_and_text.md R211: PWR.SET drives the line and emits the event, whether or not the level changes, and leaves
both units as they were, a capture in progress included. -/
def Obligations.PwrSetDrivesTheLine : Prop :=
  Issued .host 0x30000000 (.pwrSet false) ∧ Issued .host 0x30000001 (.pwrSet true) ∧
  ∀ (s : State) (lvl : Bool), ∃ t, exec (.pwrSet lvl) s = .next t ∧
    t = { s with pwr := lvl, trace := s.trace ++ [.power lvl], port := s.port.returned 0x0000 }

/-! ## Invariants -/

/-- 10_state.md R39: every step keeps the capture invariants. -/
def Obligations.StepKeepsTheCaptureInvariant : Prop :=
  ∀ s t : State, CaptureInv s → step s = .next t → CaptureInv t

/-- 10_state.md R40: every step keeps the replay invariants. -/
def Obligations.StepKeepsTheReplayInvariant : Prop :=
  ∀ s t : State, ReplayInv s → step s = .next t → ReplayInv t

/-- 10_state.md R36, 60_exceptions.md R251: every step keeps the armed durations below 2^32, and the carrier enabled exactly
when the last carrier event is CarrierOn. -/
def Obligations.StepKeepsTheTraceInvariant : Prop :=
  ∀ s t : State, TraceInv s → step s = .next t → TraceInv t

/-- 70_reset_and_hazards.md R270: the state after reset meets every invariant, under every configuration that meets the
constraints. -/
def Obligations.ResetStatesAreSound : Prop :=
  ∀ c : Config, configOk c = true → (State.resetWith c).Inv

/-- 10_state.md R39, R40: every state reachable from reset, under any configuration that meets the constraints and by any
stream of deliveries, meets the invariants. `State.Inv` holds more than those two rules: the timed-out level and the upper
bound of the last sample (41_capture.md R142), what push_ovf stands for (42_replay.md R171), the buffers' index range
(20_memory.md R50) and canonical form (log 4), and the trace (10_state.md R36, 60_exceptions.md R251). -/
def Obligations.EveryReachableStateIsSound : Prop :=
  ∀ (c : Config) (ds : List Delivery) (n : Nat) (t : State), configOk c = true →
    Host.Core.run Sys2Proof.core n ((State.resetWith c).setStream ds) = .next t → t.Inv

/-! ## Rules of the whole machine -/

/-- 20_memory.md R56: the read operations change nothing of the block, and a read repeated at once returns the same value,
but for CAP.RDSAMPLE at an index that is not below clen. -/
def Obligations.ReadsHaveNoSideEffects : Prop :=
  ∀ (i : Instr) (s : State),
    (i = .capRdstatus ∨ i = .capRdlen ∨ (∃ idx, i = .capRdsample idx) ∨ i = .repRdstatus ∨ i = .repRdlen) →
    ∃ t u v w, exec i s = .next t ∧ exec i t = .next u ∧ SameBlock s t ∧ t.port = s.port.returned v ∧
      u.port = t.port.returned w ∧ ((∀ idx, i = .capRdsample idx → idx.toNat < s.cap.clen.toNat) → w = v)

/-- 20_memory.md R57: outside the reset event a step writes the capture buffer at most at index clen, after which clen grows
by one; otherwise the buffer stays, and clen stays or starts again at 0. -/
def Obligations.CaptureBufferIsAppendOnly : Prop :=
  ∀ s t : State, CaptureInv s → (∀ ds, s.port.stream ≠ .reset :: ds) → step s = .next t →
    (t.cap.cbuf = s.cap.cbuf ∧ (t.cap.clen = s.cap.clen ∨ t.cap.clen = 0 ∧ t.cap.cstate = .wait)) ∨
    (t.cap.clen.toNat = s.cap.clen.toNat + 1 ∧
      ∃ v, ∀ i, Memory.read? t.cap.cbuf i = if i = s.cap.clen.toNat then some v else Memory.read? s.cap.cbuf i)

/-- 20_memory.md R58: outside the reset event the train being replayed never changes during its replay. -/
def Obligations.ReplayedTrainNeverChanges : Prop :=
  ∀ s t : State, s.rep.rstate ≠ .idle → (∀ ds, s.port.stream ≠ .reset :: ds) → step s = .next t →
    t.rep.rbuf = s.rep.rbuf ∧ t.rep.rlen = s.rep.rlen

/-- 10_state.md R36: outside the reset event the trace is only appended to. -/
def Obligations.TraceIsOnlyAppendedTo : Prop :=
  ∀ s t : State, (∀ ds, s.port.stream ≠ .reset :: ds) → step s = .next t → s.trace <+: t.trace

/-- 20_memory.md R61: no capture operation writes or reads a replay field and no replay operation a capture field, PWR.SET
touches only pwr, and operations of different units commute in their effect on the fields. The clause on responses takes in
the free value of an out-of-range CAP.RDSAMPLE, which 41_capture.md R141 leaves open: that two runs at the same count of
draws return the same one is the model's choice (log 6). -/
def Obligations.UnitsShareNoState : Prop :=
  (∀ (i : Instr) (s t : State), exec i s = .next t →
    (unitOf i = 1 → t.rep = s.rep ∧ t.pwr = s.pwr) ∧ (unitOf i = 2 → t.cap = s.cap ∧ t.pwr = s.pwr) ∧
    (unitOf i = 3 → t.cap = s.cap ∧ t.rep = s.rep)) ∧
  (∀ (i : Instr) (s : State) (r : Replay), unitOf i = 1 → ∃ t u, exec i s = .next t ∧
    exec i { s with rep := r } = .next u ∧ u.cap = t.cap ∧ u.port = t.port) ∧
  (∀ (i : Instr) (s : State) (c : Capture), unitOf i = 2 → ∃ t u, exec i s = .next t ∧
    exec i { s with cap := c } = .next u ∧ u.rep = t.rep ∧ u.port = t.port ∧ u.trace = t.trace) ∧
  (∀ (i j : Instr) (s : State), unitOf i ≠ unitOf j → ∃ a b c d, exec i s = .next a ∧ exec j a = .next b ∧
    exec j s = .next c ∧ exec i c = .next d ∧ b.cap = d.cap ∧ b.rep = d.rep ∧ b.pwr = d.pwr)

/-- 60_exceptions.md R247: the capture unit leaves ABORTED only by CAP.ARM, the replay unit leaves IDLE only by REP.START
and then from element 0, and what cannot nest is ignored. -/
def Obligations.AbortsAreLeftOnlyByAFreshStart : Prop :=
  ∀ (i : Instr) (s t : State), exec i s = .next t →
    (s.cap.cstate = .aborted → t.cap.cstate ≠ .aborted → i = .capArm ∧ t.cap.cstate = .wait ∧ t.cap.clen = 0) ∧
    (i = .repFault → t.rep.rstate = .idle) ∧
    (s.rep.rstate = .idle → t.rep.rstate ≠ .idle → i = .repStart ∧ t.rep.ridx = 0) ∧
    (s.cap.cstate = .aborted → (i = .capFault ∨ i = .capCancel ∨ ∃ lvl, i = .capTick lvl) → SameBlock s t) ∧
    (s.rep.rstate = .idle → (i = .repFire ∨ i = .repFault) → SameBlock s t)

/-- 60_exceptions.md R244: the order in which a cancel, a fault and a tick reach an active cycle decides its reason. -/
def Obligations.OrderOfSimultaneousEventsDecides : Prop :=
  ∀ (s : State) (lvl : Bool), (s.cap.cstate = .wait ∨ s.cap.cstate = .count) →
    (∃ t, execAll [.capCancel, .capFault] s = .next t ∧ t.cap.cstate = .aborted ∧ t.cap.abortReason = .periph) ∧
    (∃ t, execAll [.capFault, .capCancel] s = .next t ∧ t.cap.cstate = .aborted ∧ t.cap.abortReason = .periph ∧
      t.cap.cancelReq = false) ∧
    (∃ t, execAll [.capCancel, .capTick lvl] s = .next t ∧ t.cap.cstate = .aborted ∧ t.cap.abortReason = .cancelled)

/-! ## Laws of a captured train -/

/-- 41_capture.md R142 (a), (c), (d), (e): the shape of the train after every step that leaves the unit in DONE; and the step
that enters DONE does so from COUNT and completes the train with the count that reached TIMEOUT. -/
def Obligations.CompletedTrainShape : Prop :=
  ∀ s t : State, CaptureInv s → step s = .next t → t.cap.cstate = .done → let train := t.capturedTrain
    1 ≤ train.length ∧ (∀ v ∈ train, v.toNat % s.cfg.pace = 0) ∧ (∀ v ∈ train.dropLast, v.toNat < s.cfg.timeout) ∧
    (∀ v ∈ train.getLast?, s.cfg.timeout ≤ v.toNat ∧ v.toNat ≤ s.cfg.timeout + s.cfg.pace - 1) ∧
    (t.cap.level = false ↔ train.length % 2 = 0) ∧
    (s.cap.cstate ≠ .done → s.cap.cstate = .count ∧ train = s.capturedTrain ++ [t.cap.count])

/-- 41_capture.md R143: a run of r ticks that ends by a level change pushes (r - 1) · PACE; the tick that begins a run adds
nothing to it. -/
def Obligations.RunLengthLaw : Prop :=
  ∀ (s t : State) (lvl : Bool) (r : Nat), configOk s.cfg = true → CaptureInv s → BeginsRun s t lvl → 1 ≤ r →
    (r - 1) * s.cfg.pace < s.cfg.timeout → t.cap.clen.toNat < s.cfg.cbufDepth →
    ∃ u, execAll (List.replicate (r - 1) (.capTick lvl) ++ [.capTick (!lvl)]) t = .next u ∧
      u.cap.cstate = .count ∧ u.cap.level = (!lvl) ∧ u.cap.count = 0 ∧ u.cap.clen.toNat = t.cap.clen.toNat + 1 ∧
      (u.captured t.cap.clen.toNat).toNat = (r - 1) * s.cfg.pace ∧
      ∀ i, i < t.cap.clen.toNat → u.captured i = t.captured i

/-- 41_capture.md R144: a run that holds its level ends the cycle at its j-th tick after its first and at no earlier one,
where j = ceil(TIMEOUT / PACE), and its pushed value is j · PACE; with PACE = 1, j and the value are TIMEOUT. -/
def Obligations.TimeoutBoundaryLaw : Prop :=
  ∀ (s t : State) (lvl : Bool), configOk s.cfg = true → CaptureInv s → BeginsRun s t lvl →
    t.cap.clen.toNat < s.cfg.cbufDepth → let j := (s.cfg.timeout + s.cfg.pace - 1) / s.cfg.pace
    (∀ k, k < j → ∃ u, execAll (List.replicate k (.capTick lvl)) t = .next u ∧ u.cap.cstate = .count ∧
      u.cap.clen = t.cap.clen) ∧
    (∃ u, execAll (List.replicate j (.capTick lvl)) t = .next u ∧ u.cap.cstate = .done ∧
      u.cap.clen.toNat = t.cap.clen.toNat + 1 ∧ (u.captured t.cap.clen.toNat).toNat = j * s.cfg.pace) ∧
    (s.cfg.pace = 1 → j = s.cfg.timeout)

/-! ## Laws of a replayed train -/

/-- 42_replay.md R177: a loaded train of n samples is over after REP.START and exactly 2·floor(n/2) + 1 REP.FIRE, and the
trace it appends is four events for each pair and then the gap. -/
def Obligations.EmissionLaw : Prop :=
  ∀ (s : State) (train : Train), configOk s.cfg = true → s.rep.rstate = .idle → s.rep.pushOvf = false →
    s.rep.carrierEn = false → train ≠ [] → s.rep.rlen.toNat = train.length →
    (∀ i, i < train.length → Memory.read? s.rep.rbuf i = train[i]?) →
    (∀ k, k < 2 * (train.length / 2) + 1 → ∃ t, execAll (.repStart :: List.replicate k .repFire) s = .next t ∧
      t.rep.rstate ≠ .idle) ∧
    ∃ t, execAll (.repStart :: List.replicate (2 * (train.length / 2) + 1) .repFire) s = .next t ∧
      t.rep.rstate = .idle ∧ t.rep.lastResult = .completed ∧ t.rep.carrierEn = false ∧
      t.trace = s.trace ++ emission s.cfg train

/-- 42_replay.md R178: the last element of an odd-length train appears in no event, whatever its value: two runs from states
that differ only in that entry append the same trace. -/
def Obligations.OddTailIsNeverEmitted : Prop :=
  ∀ (s : State) (m : Memory) (k : Nat), configOk s.cfg = true → s.rep.rstate = .idle → s.rep.rlen.toNat % 2 = 1 →
    (∀ i, i ≠ s.rep.rlen.toNat - 1 → Memory.read? m i = Memory.read? s.rep.rbuf i) →
    ∃ t u, execAll (.repStart :: List.replicate k .repFire) s = .next t ∧
      execAll (.repStart :: List.replicate k .repFire) { s with rep := { s.rep with rbuf := m } } = .next u ∧
      u.trace = t.trace

/-- 42_replay.md R179: a train completes only through GAP, GAP is entered only with an Arm(GAP_UNITS), and no step from
GAP emits a CarrierOn: it stays in GAP or returns to IDLE. -/
def Obligations.CompletedTrainsWaitOutTheGap : Prop :=
  ∀ s t : State, step s = .next t →
    (s.rep.rstate ≠ .idle → t.rep.rstate = .idle → t.rep.lastResult = .completed → s.rep.rstate = .gap) ∧
    (s.rep.rstate ≠ .gap → t.rep.rstate = .gap → t.trace = s.trace ++ [.arm s.cfg.gapUnits]) ∧
    (s.rep.rstate = .gap → t.trace.count .carrierOn ≤ s.trace.count .carrierOn ∧
      (t.rep = s.rep ∨ t.rep.rstate = .idle))

/-! ## Codec -/

/-- 40_codec.md R106: decoding an encoded train gives the train, and encoding a decoded text gives the text, its lower-case
digits in upper case. -/
def Obligations.CodecRoundTrip : Prop :=
  (∀ train : Train, 1 ≤ train.length → decodeText (encodeTrain train) = .ok train) ∧
  (∀ (s : Text) (train : Train), decodeText s = .ok train →
    encodeTrain train = s.map toUpperHex ∧ ((∀ c ∈ s, upperHex c = true) → encodeTrain train = s))

/-- 40_codec.md R103: the shape of an encoded text. -/
def Obligations.EncodedTextShape : Prop :=
  ∀ train : Train, (encodeTrain train).length = 4 * train.length ∧ ∀ c ∈ encodeTrain train, upperHex c = true

/-- 40_codec.md R104, R105: which texts decode, to how many samples, and which error the others give: the length is
checked first, and the empty text is malformed. -/
def Obligations.DecodeAcceptsExactlyHexGroups : Prop :=
  ∀ s : Text,
    ((s = [] ∨ s.length % 4 ≠ 0) → decodeText s = .error .malformedGroupLength) ∧
    (s ≠ [] → s.length % 4 = 0 → (∀ c ∈ s, isHexChar c = true) →
      ∃ train, decodeText s = .ok train ∧ 4 * train.length = s.length) ∧
    (s ≠ [] → s.length % 4 = 0 → (∃ c ∈ s, isHexChar c = false) → decodeText s = .error .invalidHexDigit)

/-- 40_codec.md R107, R108: the time-unit view is exact integer multiplication, and every duration is below 2^32. -/
def Obligations.TimeUnitsScaleLinearly : Prop :=
  ∀ (c : Config) (train : Train), (toTimeUnits c train).length = train.length ∧
    (∀ i, i < train.length → (toTimeUnits c train)[i]? = (train[i]?).map fun v => v.toNat * c.tickUnits) ∧
    (configOk c = true → ∀ d ∈ toTimeUnits c train, d < 2 ^ 32)

/-! ## The text port -/

/-- 43_system_and_text.md R215: STRIP removes every leading and trailing blank character and keeps what is inside. -/
def Obligations.StripRemovesSurroundingBlanks : Prop :=
  (∀ c : BitVec 8, isBlank c = true ↔ c ∈ ([0x20, 0x09, 0x0A, 0x0B, 0x0C, 0x0D] : Text)) ∧
  (∀ l : Text, (∀ c ∈ l, isBlank c = true) → strip l = []) ∧
  (∀ before core after : Text, (∀ c ∈ before, isBlank c = true) → (∀ c ∈ after, isBlank c = true) →
    (∀ c ∈ core.head?, isBlank c = false) → (∀ c ∈ core.getLast?, isBlank c = false) → core ≠ [] →
    strip (before ++ core ++ after) = core)

/-- 43_system_and_text.md R214: a line is the characters up to the next LF; characters after the last LF form a last
line. -/
def Obligations.LinesEndAtLineFeed : Prop :=
  ∀ l rest : Text, lf ∉ l → takeLine (l ++ lf :: rest) = (l, rest) ∧ takeLine l = (l, [])

/-- 43_system_and_text.md R216: a line that does not decode, or whose train does not fit the replay buffer, is skipped with
a diagnostic and the session goes on with the next line; a blank line is skipped without one. The last line counts without
an LF, and at the end of the input the session ends (R214). The block is left alone. That one turn takes one line is the
model's cut (log 5). -/
def Obligations.BadLinesAreSkipped : Prop :=
  (∀ (s : State) (l rest : Text) (ds : List Delivery), configOk s.cfg = true →
    s.port.stream = .replayTurn :: ds → s.port.replaySession = .nextLine → lf ∉ l →
    (s.port.input = l ++ lf :: rest ∨ l ≠ [] ∧ rest = [] ∧ s.port.input = l) →
    let p := { s.port with stream := ds, input := rest }
    (strip l = [] → step s = .next { s with port := p }) ∧
    (∀ kind, strip l ≠ [] → decodeText (strip l) = .error kind →
      step s = .next { s with port := { p with diagnostics := s.port.diagnostics ++ [.lineRejected kind] } }) ∧
    (∀ train, decodeText (strip l) = .ok train → s.cfg.rbufDepth < train.length →
      step s = .next { s with port := { p with diagnostics := s.port.diagnostics ++ [.trainTooLong] } }) ∧
    (∀ train, decodeText (strip l) = .ok train → train.length ≤ s.cfg.rbufDepth →
      step s = .next { s with port := { p with replaySession := .awaitIdle train } })) ∧
  (∀ (s : State) (ds : List Delivery), configOk s.cfg = true → s.port.stream = .replayTurn :: ds →
    s.port.replaySession = .nextLine → s.port.input = [] →
    step s = .next { s with port := { s.port with stream := ds, replaySession := .off } })

/-- 43_system_and_text.md R214, R218: the replay session polls until the unit is IDLE before it clears the buffer, and
again after it has started the train; it reports a train that ended ABORTED. The turns are the model's cut (log 5). -/
def Obligations.ReplaySessionWaitsForIdle : Prop :=
  ∀ (s : State) (ds : List Delivery), configOk s.cfg = true → s.port.stream = .replayTurn :: ds →
    ∃ t, step s = .next t ∧
      (∀ train, s.port.replaySession = .awaitIdle train → SameBlock s t ∧
        t.port.replaySession = if s.rep.rstate = .idle then .clear train else .awaitIdle train) ∧
      (s.port.replaySession = .awaitEnd → SameBlock s t ∧
        t.port.replaySession = (if s.rep.rstate = .idle then .nextLine else .awaitEnd) ∧
        t.port.diagnostics = s.port.diagnostics ++
          (if s.rep.rstate = .idle ∧ s.rep.lastResult = .aborted then [.trainAborted] else []))

/-- 43_system_and_text.md R214: once the unit is IDLE, the session's turns load exactly the decoded train and start it. How
many turns that takes is the model's cut of the procedure (log 5). -/
def Obligations.ReplaySessionLoadsAndStarts : Prop :=
  ∀ (s : State) (train : Train), configOk s.cfg = true → s.rep.rstate = .idle → train ≠ [] →
    train.length ≤ s.cfg.rbufDepth → s.port.replaySession = .clear train →
    s.port.stream = List.replicate (train.length + 2) .replayTurn →
    ∃ t, Host.Core.run Sys2Proof.core (train.length + 2) s = .next t ∧ t.port.replaySession = .awaitEnd ∧
      t.rep.rstate ≠ .idle ∧ t.rep.ridx = 0 ∧ t.rep.pushOvf = false ∧ t.rep.rlen.toNat = train.length ∧
      ∀ i, i < train.length → Memory.read? t.rep.rbuf i = train[i]?

/-- 43_system_and_text.md R212: what each turn of the capture session does at the top of its loop and on a poll. Only the
turns that read a completed train may write to the output stream, and no turn reports anything but a cycle that ended in
another abort than a cancel (R213). The turns are the model's cut of the procedure (log 5). -/
def Obligations.CaptureSessionFollowsTheStatus : Prop :=
  ∀ (s : State) (ds : List Delivery), configOk s.cfg = true → s.port.stream = .captureTurn :: ds →
    ∃ t, step s = .next t ∧
      ((s.port.captureSession ≠ .readLen ∧ ∀ n got, s.port.captureSession ≠ .readSamples n got) →
        t.port.output = s.port.output) ∧
      (¬ (s.port.captureSession = .poll ∧ s.cap.cstate = .aborted ∧ s.cap.abortReason ≠ .cancelled) →
        t.port.diagnostics = s.port.diagnostics) ∧
      (s.port.captureSession = .loop → s.port.stopAsked = true → SameBlock s t ∧ t.port.captureSession = .off) ∧
      (s.port.captureSession = .loop → s.port.stopAsked = false → t.port.captureSession = .poll ∧
        ∃ u, exec .capArm s = .next u ∧ SameBlock u t) ∧
      (s.port.captureSession = .poll → SameBlock s t ∧
        (s.cap.cstate = .done → t.port.captureSession = .readLen) ∧
        (s.cap.cstate = .aborted → s.cap.abortReason = .cancelled → t.port.captureSession = .off) ∧
        (s.cap.cstate = .aborted → s.cap.abortReason ≠ .cancelled → t.port.captureSession = .loop ∧
          t.port.diagnostics = s.port.diagnostics ++ [.captureCycleFailed]) ∧
        (s.cap.cstate ≠ .done → s.cap.cstate ≠ .aborted → t.port.captureSession = .poll))

/-- 43_system_and_text.md R212, R213, 30_encoding.md R82: for a completed train the session's turns write exactly its text,
LF and a blank line, and leave the block as it was. How many turns that takes is the model's cut of the procedure
(log 5). -/
def Obligations.CaptureSessionWritesTheTrain : Prop :=
  ∀ s : State, configOk s.cfg = true → CaptureInv s → s.cap.cstate = .done → s.port.captureSession = .readLen →
    s.port.stream = List.replicate (s.cap.clen.toNat + 1) .captureTurn →
    ∃ t, Host.Core.run Sys2Proof.core (s.cap.clen.toNat + 1) s = .next t ∧ SameBlock s t ∧
      t.port.captureSession = .loop ∧ t.port.diagnostics = s.port.diagnostics ∧
      t.port.output = s.port.output ++ (encodeTrain s.capturedTrain ++ [0x0A, 0x0A])

/-! ## Collaborators -/

/-- 60_exceptions.md R251: while enabled, the carrier waveform has the configured period and is at its active level for
DUTY_ON_UNITS of each period, whatever the phase; while disabled it is at its inactive level. -/
def Obligations.CarrierWaveformHasTheConfiguredDuty : Prop :=
  ∀ (c : Config) (phase t : Nat), configOk c = true →
    waveLevel c true phase (t + c.carrierPeriodUnits) = waveLevel c true phase t ∧
    ((List.range c.carrierPeriodUnits).filter fun k => waveActive c phase (t + k)).length = c.dutyOnUnits ∧
    (waveLevel c true phase t = if waveActive c phase t then decide (c.carrierPolarity = .normal)
      else decide (c.carrierPolarity = .inverted)) ∧
    waveLevel c false phase t = decide (c.carrierPolarity = .inverted)
end

