-- ==== Sys2Proof/Laws/Decode.lean ====
section
/-! SUPPORT. The fields of an encoded word. -/

namespace Sys2Proof

theorem opField_encode (i : Instr) : opField (encode i) = opcode i := by
  apply BitVec.eq_of_getLsbD_eq
  intro k hk
  have h1 : 24 + k < 32 := by omega
  have h2 : ¬ 24 + k < 24 := by omega
  have h3 : ¬ 24 + k < 16 := by omega
  have h4 : (operandData i).getLsbD (24 + k) = false := BitVec.getLsbD_of_ge _ _ (by omega)
  simp [opField, encode, hk, h1, h2, h4]

theorem rsvField_encode (i : Instr) : rsvField (encode i) = 0 := by
  apply BitVec.eq_of_getLsbD_eq
  intro k hk
  have h2 : 16 + k < 24 := by omega
  simp [rsvField, encode, hk, h2]

theorem dataField_encode (i : Instr) : dataField (encode i) = operandData i := by
  apply BitVec.eq_of_getLsbD_eq
  intro k hk
  have h2 : k < 24 := by omega
  have h1 : k < 32 := by omega
  simp [dataField, encode, hk, h1, h2]

end Sys2Proof
end

