-- ==== Sys2Proof/Laws/State.lean ====
section
/-! SUPPORT. One lemma for each field under each update of the state. -/

namespace Sys2Proof.Machine

@[simp] theorem State.setCap_cfg (s : State) (c : Capture) : (s.setCap c).cfg = s.cfg := rfl
@[simp] theorem State.setCap_cap (s : State) (c : Capture) : (s.setCap c).cap = c := rfl
@[simp] theorem State.setCap_rep (s : State) (c : Capture) : (s.setCap c).rep = s.rep := rfl
@[simp] theorem State.setCap_pwr (s : State) (c : Capture) : (s.setCap c).pwr = s.pwr := rfl
@[simp] theorem State.setCap_trace (s : State) (c : Capture) : (s.setCap c).trace = s.trace := rfl
@[simp] theorem State.setCap_port (s : State) (c : Capture) : (s.setCap c).port = s.port := rfl
@[simp] theorem State.setCap_draws (s : State) (c : Capture) : (s.setCap c).draws = s.draws := rfl

@[simp] theorem State.setRep_cfg (s : State) (r : Replay) : (s.setRep r).cfg = s.cfg := rfl
@[simp] theorem State.setRep_cap (s : State) (r : Replay) : (s.setRep r).cap = s.cap := rfl
@[simp] theorem State.setRep_rep (s : State) (r : Replay) : (s.setRep r).rep = r := rfl
@[simp] theorem State.setRep_pwr (s : State) (r : Replay) : (s.setRep r).pwr = s.pwr := rfl
@[simp] theorem State.setRep_trace (s : State) (r : Replay) : (s.setRep r).trace = s.trace := rfl
@[simp] theorem State.setRep_port (s : State) (r : Replay) : (s.setRep r).port = s.port := rfl
@[simp] theorem State.setRep_draws (s : State) (r : Replay) : (s.setRep r).draws = s.draws := rfl

@[simp] theorem State.setPwr_cfg (s : State) (v : Bool) : (s.setPwr v).cfg = s.cfg := rfl
@[simp] theorem State.setPwr_cap (s : State) (v : Bool) : (s.setPwr v).cap = s.cap := rfl
@[simp] theorem State.setPwr_rep (s : State) (v : Bool) : (s.setPwr v).rep = s.rep := rfl
@[simp] theorem State.setPwr_pwr (s : State) (v : Bool) : (s.setPwr v).pwr = v := rfl
@[simp] theorem State.setPwr_trace (s : State) (v : Bool) : (s.setPwr v).trace = s.trace := rfl
@[simp] theorem State.setPwr_port (s : State) (v : Bool) : (s.setPwr v).port = s.port := rfl
@[simp] theorem State.setPwr_draws (s : State) (v : Bool) : (s.setPwr v).draws = s.draws := rfl

@[simp] theorem State.emit_cfg (s : State) (e : TraceEvent) : (s.emit e).cfg = s.cfg := rfl
@[simp] theorem State.emit_cap (s : State) (e : TraceEvent) : (s.emit e).cap = s.cap := rfl
@[simp] theorem State.emit_rep (s : State) (e : TraceEvent) : (s.emit e).rep = s.rep := rfl
@[simp] theorem State.emit_pwr (s : State) (e : TraceEvent) : (s.emit e).pwr = s.pwr := rfl
@[simp] theorem State.emit_trace (s : State) (e : TraceEvent) : (s.emit e).trace = s.trace ++ [e] := rfl
@[simp] theorem State.emit_port (s : State) (e : TraceEvent) : (s.emit e).port = s.port := rfl
@[simp] theorem State.emit_draws (s : State) (e : TraceEvent) : (s.emit e).draws = s.draws := rfl

@[simp] theorem State.drawn_cfg (s : State) : (s.drawn).cfg = s.cfg := rfl
@[simp] theorem State.drawn_cap (s : State) : (s.drawn).cap = s.cap := rfl
@[simp] theorem State.drawn_rep (s : State) : (s.drawn).rep = s.rep := rfl
@[simp] theorem State.drawn_pwr (s : State) : (s.drawn).pwr = s.pwr := rfl
@[simp] theorem State.drawn_trace (s : State) : (s.drawn).trace = s.trace := rfl
@[simp] theorem State.drawn_port (s : State) : (s.drawn).port = s.port := rfl
@[simp] theorem State.drawn_draws (s : State) : (s.drawn).draws = s.draws + 1 := rfl

@[simp] theorem State.resetBlock_cfg (s : State) : (s.resetBlock).cfg = s.cfg := rfl
@[simp] theorem State.resetBlock_cap (s : State) : (s.resetBlock).cap = Capture.reset := rfl
@[simp] theorem State.resetBlock_rep (s : State) : (s.resetBlock).rep = Replay.reset := rfl
@[simp] theorem State.resetBlock_pwr (s : State) : (s.resetBlock).pwr = false := rfl
@[simp] theorem State.resetBlock_trace (s : State) : (s.resetBlock).trace = [] := rfl
@[simp] theorem State.resetBlock_port (s : State) : (s.resetBlock).port = s.port := rfl
@[simp] theorem State.resetBlock_draws (s : State) : (s.resetBlock).draws = s.draws := rfl

@[simp] theorem State.setPort_cfg (s : State) (p : Port) : (s.setPort p).cfg = s.cfg := rfl
@[simp] theorem State.setPort_cap (s : State) (p : Port) : (s.setPort p).cap = s.cap := rfl
@[simp] theorem State.setPort_rep (s : State) (p : Port) : (s.setPort p).rep = s.rep := rfl
@[simp] theorem State.setPort_pwr (s : State) (p : Port) : (s.setPort p).pwr = s.pwr := rfl
@[simp] theorem State.setPort_trace (s : State) (p : Port) : (s.setPort p).trace = s.trace := rfl
@[simp] theorem State.setPort_port (s : State) (p : Port) : (s.setPort p).port = p := rfl
@[simp] theorem State.setPort_draws (s : State) (p : Port) : (s.setPort p).draws = s.draws := rfl

@[simp] theorem State.respond_cfg (s : State) (v : Response) : (s.respond v).cfg = s.cfg := rfl
@[simp] theorem State.respond_cap (s : State) (v : Response) : (s.respond v).cap = s.cap := rfl
@[simp] theorem State.respond_rep (s : State) (v : Response) : (s.respond v).rep = s.rep := rfl
@[simp] theorem State.respond_pwr (s : State) (v : Response) : (s.respond v).pwr = s.pwr := rfl
@[simp] theorem State.respond_trace (s : State) (v : Response) : (s.respond v).trace = s.trace := rfl
@[simp] theorem State.respond_draws (s : State) (v : Response) : (s.respond v).draws = s.draws := rfl
@[simp] theorem State.respond_port_stream (s : State) (v : Response) : (s.respond v).port.stream = s.port.stream := rfl
@[simp] theorem State.respond_port_responses (s : State) (v : Response) : (s.respond v).port.responses = s.port.responses ++ [v] := rfl
@[simp] theorem State.respond_port_captureSession (s : State) (v : Response) : (s.respond v).port.captureSession = s.port.captureSession := rfl
@[simp] theorem State.respond_port_replaySession (s : State) (v : Response) : (s.respond v).port.replaySession = s.port.replaySession := rfl
@[simp] theorem State.respond_port_stopAsked (s : State) (v : Response) : (s.respond v).port.stopAsked = s.port.stopAsked := rfl
@[simp] theorem State.respond_port_input (s : State) (v : Response) : (s.respond v).port.input = s.port.input := rfl
@[simp] theorem State.respond_port_output (s : State) (v : Response) : (s.respond v).port.output = s.port.output := rfl
@[simp] theorem State.respond_port_diagnostics (s : State) (v : Response) : (s.respond v).port.diagnostics = s.port.diagnostics := rfl

@[simp] theorem State.setCaptureSession_cfg (s : State) (c : CaptureSession) : (s.setCaptureSession c).cfg = s.cfg := rfl
@[simp] theorem State.setCaptureSession_cap (s : State) (c : CaptureSession) : (s.setCaptureSession c).cap = s.cap := rfl
@[simp] theorem State.setCaptureSession_rep (s : State) (c : CaptureSession) : (s.setCaptureSession c).rep = s.rep := rfl
@[simp] theorem State.setCaptureSession_pwr (s : State) (c : CaptureSession) : (s.setCaptureSession c).pwr = s.pwr := rfl
@[simp] theorem State.setCaptureSession_trace (s : State) (c : CaptureSession) : (s.setCaptureSession c).trace = s.trace := rfl
@[simp] theorem State.setCaptureSession_draws (s : State) (c : CaptureSession) : (s.setCaptureSession c).draws = s.draws := rfl
@[simp] theorem State.setCaptureSession_port_stream (s : State) (c : CaptureSession) : (s.setCaptureSession c).port.stream = s.port.stream := rfl
@[simp] theorem State.setCaptureSession_port_responses (s : State) (c : CaptureSession) : (s.setCaptureSession c).port.responses = s.port.responses := rfl
@[simp] theorem State.setCaptureSession_port_captureSession (s : State) (c : CaptureSession) : (s.setCaptureSession c).port.captureSession = c := rfl
@[simp] theorem State.setCaptureSession_port_replaySession (s : State) (c : CaptureSession) : (s.setCaptureSession c).port.replaySession = s.port.replaySession := rfl
@[simp] theorem State.setCaptureSession_port_stopAsked (s : State) (c : CaptureSession) : (s.setCaptureSession c).port.stopAsked = s.port.stopAsked := rfl
@[simp] theorem State.setCaptureSession_port_input (s : State) (c : CaptureSession) : (s.setCaptureSession c).port.input = s.port.input := rfl
@[simp] theorem State.setCaptureSession_port_output (s : State) (c : CaptureSession) : (s.setCaptureSession c).port.output = s.port.output := rfl
@[simp] theorem State.setCaptureSession_port_diagnostics (s : State) (c : CaptureSession) : (s.setCaptureSession c).port.diagnostics = s.port.diagnostics := rfl

@[simp] theorem State.setReplaySession_cfg (s : State) (r : ReplaySession) : (s.setReplaySession r).cfg = s.cfg := rfl
@[simp] theorem State.setReplaySession_cap (s : State) (r : ReplaySession) : (s.setReplaySession r).cap = s.cap := rfl
@[simp] theorem State.setReplaySession_rep (s : State) (r : ReplaySession) : (s.setReplaySession r).rep = s.rep := rfl
@[simp] theorem State.setReplaySession_pwr (s : State) (r : ReplaySession) : (s.setReplaySession r).pwr = s.pwr := rfl
@[simp] theorem State.setReplaySession_trace (s : State) (r : ReplaySession) : (s.setReplaySession r).trace = s.trace := rfl
@[simp] theorem State.setReplaySession_draws (s : State) (r : ReplaySession) : (s.setReplaySession r).draws = s.draws := rfl
@[simp] theorem State.setReplaySession_port_stream (s : State) (r : ReplaySession) : (s.setReplaySession r).port.stream = s.port.stream := rfl
@[simp] theorem State.setReplaySession_port_responses (s : State) (r : ReplaySession) : (s.setReplaySession r).port.responses = s.port.responses := rfl
@[simp] theorem State.setReplaySession_port_captureSession (s : State) (r : ReplaySession) : (s.setReplaySession r).port.captureSession = s.port.captureSession := rfl
@[simp] theorem State.setReplaySession_port_replaySession (s : State) (r : ReplaySession) : (s.setReplaySession r).port.replaySession = r := rfl
@[simp] theorem State.setReplaySession_port_stopAsked (s : State) (r : ReplaySession) : (s.setReplaySession r).port.stopAsked = s.port.stopAsked := rfl
@[simp] theorem State.setReplaySession_port_input (s : State) (r : ReplaySession) : (s.setReplaySession r).port.input = s.port.input := rfl
@[simp] theorem State.setReplaySession_port_output (s : State) (r : ReplaySession) : (s.setReplaySession r).port.output = s.port.output := rfl
@[simp] theorem State.setReplaySession_port_diagnostics (s : State) (r : ReplaySession) : (s.setReplaySession r).port.diagnostics = s.port.diagnostics := rfl

@[simp] theorem State.writeOut_cfg (s : State) (t : Text) : (s.writeOut t).cfg = s.cfg := rfl
@[simp] theorem State.writeOut_cap (s : State) (t : Text) : (s.writeOut t).cap = s.cap := rfl
@[simp] theorem State.writeOut_rep (s : State) (t : Text) : (s.writeOut t).rep = s.rep := rfl
@[simp] theorem State.writeOut_pwr (s : State) (t : Text) : (s.writeOut t).pwr = s.pwr := rfl
@[simp] theorem State.writeOut_trace (s : State) (t : Text) : (s.writeOut t).trace = s.trace := rfl
@[simp] theorem State.writeOut_draws (s : State) (t : Text) : (s.writeOut t).draws = s.draws := rfl
@[simp] theorem State.writeOut_port_stream (s : State) (t : Text) : (s.writeOut t).port.stream = s.port.stream := rfl
@[simp] theorem State.writeOut_port_responses (s : State) (t : Text) : (s.writeOut t).port.responses = s.port.responses := rfl
@[simp] theorem State.writeOut_port_captureSession (s : State) (t : Text) : (s.writeOut t).port.captureSession = s.port.captureSession := rfl
@[simp] theorem State.writeOut_port_replaySession (s : State) (t : Text) : (s.writeOut t).port.replaySession = s.port.replaySession := rfl
@[simp] theorem State.writeOut_port_stopAsked (s : State) (t : Text) : (s.writeOut t).port.stopAsked = s.port.stopAsked := rfl
@[simp] theorem State.writeOut_port_input (s : State) (t : Text) : (s.writeOut t).port.input = s.port.input := rfl
@[simp] theorem State.writeOut_port_output (s : State) (t : Text) : (s.writeOut t).port.output = s.port.output ++ t := rfl
@[simp] theorem State.writeOut_port_diagnostics (s : State) (t : Text) : (s.writeOut t).port.diagnostics = s.port.diagnostics := rfl

@[simp] theorem State.report_cfg (s : State) (d : Diagnostic) : (s.report d).cfg = s.cfg := rfl
@[simp] theorem State.report_cap (s : State) (d : Diagnostic) : (s.report d).cap = s.cap := rfl
@[simp] theorem State.report_rep (s : State) (d : Diagnostic) : (s.report d).rep = s.rep := rfl
@[simp] theorem State.report_pwr (s : State) (d : Diagnostic) : (s.report d).pwr = s.pwr := rfl
@[simp] theorem State.report_trace (s : State) (d : Diagnostic) : (s.report d).trace = s.trace := rfl
@[simp] theorem State.report_draws (s : State) (d : Diagnostic) : (s.report d).draws = s.draws := rfl
@[simp] theorem State.report_port_stream (s : State) (d : Diagnostic) : (s.report d).port.stream = s.port.stream := rfl
@[simp] theorem State.report_port_responses (s : State) (d : Diagnostic) : (s.report d).port.responses = s.port.responses := rfl
@[simp] theorem State.report_port_captureSession (s : State) (d : Diagnostic) : (s.report d).port.captureSession = s.port.captureSession := rfl
@[simp] theorem State.report_port_replaySession (s : State) (d : Diagnostic) : (s.report d).port.replaySession = s.port.replaySession := rfl
@[simp] theorem State.report_port_stopAsked (s : State) (d : Diagnostic) : (s.report d).port.stopAsked = s.port.stopAsked := rfl
@[simp] theorem State.report_port_input (s : State) (d : Diagnostic) : (s.report d).port.input = s.port.input := rfl
@[simp] theorem State.report_port_output (s : State) (d : Diagnostic) : (s.report d).port.output = s.port.output := rfl
@[simp] theorem State.report_port_diagnostics (s : State) (d : Diagnostic) : (s.report d).port.diagnostics = s.port.diagnostics ++ [d] := rfl

@[simp] theorem State.setInput_cfg (s : State) (t : Text) : (s.setInput t).cfg = s.cfg := rfl
@[simp] theorem State.setInput_cap (s : State) (t : Text) : (s.setInput t).cap = s.cap := rfl
@[simp] theorem State.setInput_rep (s : State) (t : Text) : (s.setInput t).rep = s.rep := rfl
@[simp] theorem State.setInput_pwr (s : State) (t : Text) : (s.setInput t).pwr = s.pwr := rfl
@[simp] theorem State.setInput_trace (s : State) (t : Text) : (s.setInput t).trace = s.trace := rfl
@[simp] theorem State.setInput_draws (s : State) (t : Text) : (s.setInput t).draws = s.draws := rfl
@[simp] theorem State.setInput_port_stream (s : State) (t : Text) : (s.setInput t).port.stream = s.port.stream := rfl
@[simp] theorem State.setInput_port_responses (s : State) (t : Text) : (s.setInput t).port.responses = s.port.responses := rfl
@[simp] theorem State.setInput_port_captureSession (s : State) (t : Text) : (s.setInput t).port.captureSession = s.port.captureSession := rfl
@[simp] theorem State.setInput_port_replaySession (s : State) (t : Text) : (s.setInput t).port.replaySession = s.port.replaySession := rfl
@[simp] theorem State.setInput_port_stopAsked (s : State) (t : Text) : (s.setInput t).port.stopAsked = s.port.stopAsked := rfl
@[simp] theorem State.setInput_port_input (s : State) (t : Text) : (s.setInput t).port.input = t := rfl
@[simp] theorem State.setInput_port_output (s : State) (t : Text) : (s.setInput t).port.output = s.port.output := rfl
@[simp] theorem State.setInput_port_diagnostics (s : State) (t : Text) : (s.setInput t).port.diagnostics = s.port.diagnostics := rfl

@[simp] theorem State.setStream_cfg (s : State) (ds : List Delivery) : (s.setStream ds).cfg = s.cfg := rfl
@[simp] theorem State.setStream_cap (s : State) (ds : List Delivery) : (s.setStream ds).cap = s.cap := rfl
@[simp] theorem State.setStream_rep (s : State) (ds : List Delivery) : (s.setStream ds).rep = s.rep := rfl
@[simp] theorem State.setStream_pwr (s : State) (ds : List Delivery) : (s.setStream ds).pwr = s.pwr := rfl
@[simp] theorem State.setStream_trace (s : State) (ds : List Delivery) : (s.setStream ds).trace = s.trace := rfl
@[simp] theorem State.setStream_draws (s : State) (ds : List Delivery) : (s.setStream ds).draws = s.draws := rfl
@[simp] theorem State.setStream_port_stream (s : State) (ds : List Delivery) : (s.setStream ds).port.stream = ds := rfl
@[simp] theorem State.setStream_port_responses (s : State) (ds : List Delivery) : (s.setStream ds).port.responses = s.port.responses := rfl
@[simp] theorem State.setStream_port_captureSession (s : State) (ds : List Delivery) : (s.setStream ds).port.captureSession = s.port.captureSession := rfl
@[simp] theorem State.setStream_port_replaySession (s : State) (ds : List Delivery) : (s.setStream ds).port.replaySession = s.port.replaySession := rfl
@[simp] theorem State.setStream_port_stopAsked (s : State) (ds : List Delivery) : (s.setStream ds).port.stopAsked = s.port.stopAsked := rfl
@[simp] theorem State.setStream_port_input (s : State) (ds : List Delivery) : (s.setStream ds).port.input = s.port.input := rfl
@[simp] theorem State.setStream_port_output (s : State) (ds : List Delivery) : (s.setStream ds).port.output = s.port.output := rfl
@[simp] theorem State.setStream_port_diagnostics (s : State) (ds : List Delivery) : (s.setStream ds).port.diagnostics = s.port.diagnostics := rfl

@[simp] theorem State.setStopAsked_cfg (s : State) (b : Bool) : (s.setStopAsked b).cfg = s.cfg := rfl
@[simp] theorem State.setStopAsked_cap (s : State) (b : Bool) : (s.setStopAsked b).cap = s.cap := rfl
@[simp] theorem State.setStopAsked_rep (s : State) (b : Bool) : (s.setStopAsked b).rep = s.rep := rfl
@[simp] theorem State.setStopAsked_pwr (s : State) (b : Bool) : (s.setStopAsked b).pwr = s.pwr := rfl
@[simp] theorem State.setStopAsked_trace (s : State) (b : Bool) : (s.setStopAsked b).trace = s.trace := rfl
@[simp] theorem State.setStopAsked_draws (s : State) (b : Bool) : (s.setStopAsked b).draws = s.draws := rfl
@[simp] theorem State.setStopAsked_port_stream (s : State) (b : Bool) : (s.setStopAsked b).port.stream = s.port.stream := rfl
@[simp] theorem State.setStopAsked_port_responses (s : State) (b : Bool) : (s.setStopAsked b).port.responses = s.port.responses := rfl
@[simp] theorem State.setStopAsked_port_captureSession (s : State) (b : Bool) : (s.setStopAsked b).port.captureSession = s.port.captureSession := rfl
@[simp] theorem State.setStopAsked_port_replaySession (s : State) (b : Bool) : (s.setStopAsked b).port.replaySession = s.port.replaySession := rfl
@[simp] theorem State.setStopAsked_port_stopAsked (s : State) (b : Bool) : (s.setStopAsked b).port.stopAsked = b := rfl
@[simp] theorem State.setStopAsked_port_input (s : State) (b : Bool) : (s.setStopAsked b).port.input = s.port.input := rfl
@[simp] theorem State.setStopAsked_port_output (s : State) (b : Bool) : (s.setStopAsked b).port.output = s.port.output := rfl
@[simp] theorem State.setStopAsked_port_diagnostics (s : State) (b : Bool) : (s.setStopAsked b).port.diagnostics = s.port.diagnostics := rfl

/-- The response an agent reads is the one the step returned. -/
@[simp] theorem State.lastResponse_respond (s : State) (v : Response) : (s.respond v).lastResponse = v := by
  simp [State.lastResponse]

/-- Adding a response is the interface's only change. -/
theorem State.respond_eq (s : State) (v : Response) : s.respond v = { s with port := s.port.returned v } := rfl

/-- The response an agent reads depends on the interface alone. -/
theorem State.lastResponse_congr {s t : State} (h : t.port.responses = s.port.responses) :
    t.lastResponse = s.lastResponse := by
  simp [State.lastResponse, h]

end Sys2Proof.Machine
end

