-- ==== Sys2Proof/Laws/Memory.lean ====
section
/-! SUPPORT. The buffers: a read after a write, the canonical form, and the index range. -/

namespace Sys2Proof.Machine

@[simp] theorem Memory.read?_nil (i : Nat) : Memory.read? [] i = none := rfl

/-- An index below every listed one is not listed. -/
theorem Memory.read?_below {m : Memory} {i : Nat} (h : ∀ e ∈ m, i < e.1) : Memory.read? m i = none := by
  induction m with
  | nil => rfl
  | cons e rest ih =>
    have he := h e (by simp)
    have : i ≠ e.1 := by omega
    simp [Memory.read?, this, ih fun x hx => h x (by simp [hx])]

/-- A write gives the written index the written value and leaves every other index alone. -/
@[simp] theorem Memory.read?_write (m : Memory) (i j : Nat) (v : Sample) :
    Memory.read? (Memory.write m i v) j = if j = i then some v else Memory.read? m j := by
  induction m with
  | nil => by_cases h : j = i <;> simp [Memory.write, Memory.read?, h]
  | cons e rest ih =>
    obtain ⟨k, u⟩ := e
    unfold Memory.write
    split
    · by_cases h : j = i <;> simp [Memory.read?, h]
    · split
      · subst_vars
        by_cases h : j = k <;> simp [Memory.read?, h]
      · by_cases h : j = k
        · subst h
          have : ¬ j = i := by omega
          simp [Memory.read?, this]
        · simp [Memory.read?, h, ih]

/-- The cells after a write: the written one and cells that stood before. -/
theorem Memory.mem_write {m : Memory} {i : Nat} {v : Sample} {e : Nat × Sample} (h : e ∈ Memory.write m i v) :
    e = (i, v) ∨ e ∈ m := by
  induction m with
  | nil => simpa [Memory.write] using h
  | cons x rest ih =>
    unfold Memory.write at h
    split at h
    · simpa using h
    · split at h
      · rcases List.mem_cons.1 h with h | h
        · exact .inl h
        · exact .inr (by simp [h])
      · rcases List.mem_cons.1 h with h | h
        · exact .inr (by simp [h])
        · rcases ih h with h | h
          · exact .inl h
          · exact .inr (by simp [h])

/-- A write keeps the canonical form. -/
theorem Memory.wf_write {m : Memory} (i : Nat) (v : Sample) (h : Memory.wf m = true) :
    Memory.wf (Memory.write m i v) = true := by
  induction m with
  | nil => rfl
  | cons x rest ih =>
    obtain ⟨k, u⟩ := x
    simp only [Memory.wf, Bool.and_eq_true, List.all_eq_true, decide_eq_true_eq] at h
    unfold Memory.write
    split
    · rename_i hik
      simp only [Memory.wf, Bool.and_eq_true, List.all_eq_true, decide_eq_true_eq]
      refine ⟨fun e he => ?_, h⟩
      rcases List.mem_cons.1 he with rfl | he
      · exact hik
      · exact lt_trans hik (h.1 e he)
    · split
      · subst_vars
        simpa [Memory.wf] using h
      · simp only [Memory.wf, Bool.and_eq_true, List.all_eq_true, decide_eq_true_eq]
        refine ⟨fun e he => ?_, ih h.2⟩
        rcases Memory.mem_write he with rfl | he
        · show k < i
          omega
        · exact h.1 e he

@[simp] theorem memRead_write (b : Space) (m : Memory) (i j : Nat) (v : Sample) :
    memRead b (Memory.write m i v) j = if j = i then v else memRead b m j := by
  unfold memRead
  by_cases h : j = i <;> simp [h]

/-- Equal listed values are equal reads. -/
theorem memRead_congr {b : Space} {m n : Memory} {i : Nat} (h : Memory.read? m i = Memory.read? n i) :
    memRead b m i = memRead b n i := by
  simp [memRead, h]

/-- A listed entry reads as what is listed. -/
theorem memRead_of_read? {b : Space} {m : Memory} {i : Nat} {v : Sample} (h : Memory.read? m i = some v) :
    memRead b m i = v := by
  simp [memRead, h]

/-- The empty buffer. -/
theorem BufferInv.empty (depth : Nat) : BufferInv [] depth 0 := ⟨rfl, by simp, by simp⟩

/-- Fewer entries count. -/
theorem BufferInv.shorter {m : Memory} {depth n k : Nat} (h : BufferInv m depth n) (hk : k ≤ n) : BufferInv m depth k :=
  ⟨h.form, h.range, fun i hi => h.written i (by omega)⟩

/-- Appending one sample below the depth. -/
theorem BufferInv.append {m : Memory} {depth n : Nat} (h : BufferInv m depth n) (hn : n < depth) (v : Sample) :
    BufferInv (Memory.write m n v) depth (n + 1) where
  form := Memory.wf_write n v h.form
  range e he := by
    rcases Memory.mem_write he with rfl | he
    · exact hn
    · exact h.range e he
  written i hi := by
    by_cases hin : i = n
    · simp [hin]
    · simpa [hin] using h.written i (by omega)

end Sys2Proof.Machine
end

