-- ==== Sys2Proof/Laws/Ops.lean ====
section
/-! SUPPORT. The configuration check, the capture abort and the push step, each said once. -/

namespace Sys2Proof.Machine

/-- The configuration check is the table of constraints. -/
theorem configOk_iff (c : Config) : configOk c = true ↔ Constraints c := by
  constructor
  · intro h
    simp only [configOk, Bool.and_eq_true, decide_eq_true_eq] at h
    obtain ⟨⟨⟨⟨⟨⟨⟨h1, h2⟩, h3⟩, h4⟩, h5⟩, h6⟩, h7⟩, h8⟩ := h
    exact ⟨h1, h2, h3, h4, h5, h6, h7, h8⟩
  · rintro ⟨h1, h2, h3, h4, h5, h6, h7, h8⟩
    simp only [configOk, Bool.and_eq_true, decide_eq_true_eq]
    exact ⟨⟨⟨⟨⟨⟨⟨h1, h2⟩, h3⟩, h4⟩, h5⟩, h6⟩, h7⟩, h8⟩

/-- Every duration of a sample fits in 32 bits. -/
theorem duration_lt {c : Config} (h : configOk c = true) (v : Sample) : duration c v < 2 ^ 32 := by
  have ht := ((configOk_iff c).1 h).tickUnits
  have hv := v.isLt
  calc duration c v ≤ 65535 * 65536 := Nat.mul_le_mul (by omega) ht.2
    _ < 2 ^ 32 := by norm_num

@[simp] theorem capAbort_cstate (r : AbortReason) (c : Capture) : (capAbort r c).cstate = .aborted := rfl
@[simp] theorem capAbort_level (r : AbortReason) (c : Capture) : (capAbort r c).level = c.level := rfl
@[simp] theorem capAbort_count (r : AbortReason) (c : Capture) : (capAbort r c).count = c.count := rfl
@[simp] theorem capAbort_cbuf (r : AbortReason) (c : Capture) : (capAbort r c).cbuf = c.cbuf := rfl
@[simp] theorem capAbort_clen (r : AbortReason) (c : Capture) : (capAbort r c).clen = c.clen := rfl
@[simp] theorem capAbort_cancelReq (r : AbortReason) (c : Capture) : (capAbort r c).cancelReq = false := rfl
@[simp] theorem capAbort_abortReason (r : AbortReason) (c : Capture) : (capAbort r c).abortReason = r := rfl

/-- A push to a full buffer aborts with OVERFLOW. -/
theorem pushSample_full {depth : Nat} {c : Capture} (h : c.clen.toNat = depth) (v : Sample) (k : Capture → Capture) :
    pushSample depth c v k = capAbort .overflow c := by
  simp [pushSample, h]

/-- A push to a buffer with room writes at clen and goes on. -/
theorem pushSample_room {depth : Nat} {c : Capture} (h : c.clen.toNat ≠ depth) (v : Sample) (k : Capture → Capture) :
    pushSample depth c v k = k { c with cbuf := Memory.write c.cbuf c.clen.toNat v, clen := c.clen + 1 } := by
  simp [pushSample, h]

/-- A length below the largest depth grows by one without wrapping. -/
theorem toNat_succ {n : BitVec 16} {depth : Nat} (h : n.toNat < depth) (hd : depth ≤ 65535) :
    (n + 1).toNat = n.toNat + 1 := by
  rw [BitVec.toNat_add]
  have : (1 : BitVec 16).toNat = 1 := rfl
  omega

end Sys2Proof.Machine
end

