-- ==== Sys2Proof/Laws/Exec.lean ====
section
/-! SUPPORT. What an operation can change, said once: every operation answers a next state, returns one response and keeps
the configuration; an operation of one unit leaves the other alone. -/

namespace Sys2Proof.Machine

@[simp] theorem answer_eq (v : Response) (s : State) : answer v s = .next (s.respond v) := rfl

/-- The block and the interface after one operation: which fields can have changed, and what was returned. -/
structure Performed (s t : State) (v : Response) : Prop where
  cfg : t.cfg = s.cfg
  port : t.port = s.port.returned v

theorem Performed.returned (s : State) (v : Response) : Performed s (s.respond v) v := ⟨rfl, rfl⟩

@[simp] theorem fireReplay_cfg (s : State) : (fireReplay s).cfg = s.cfg := by
  unfold fireReplay
  split
  · rfl
  · rfl
  · simp only
    split <;> rfl
  · rfl

@[simp] theorem fireReplay_port (s : State) : (fireReplay s).port = s.port := by
  unfold fireReplay
  split
  · rfl
  · rfl
  · simp only
    split <;> rfl
  · rfl

@[simp] theorem quietCarrier_cfg (s : State) : (quietCarrier s).cfg = s.cfg := by unfold quietCarrier; split <;> rfl
@[simp] theorem quietCarrier_port (s : State) : (quietCarrier s).port = s.port := by unfold quietCarrier; split <;> rfl

/-- Every operation answers a next state with one response, under the same configuration. -/
theorem exec_next (i : Instr) (s : State) : ∃ t v, exec i s = .next t ∧ Performed s t v := by
  cases i with
  | nop => exact ⟨_, _, rfl, .returned s 0⟩
  | capArm =>
    simp only [exec, execCapArm]
    split <;> exact ⟨_, _, rfl, rfl, rfl⟩
  | capCancel =>
    simp only [exec, execCapCancel]
    split <;> exact ⟨_, _, rfl, rfl, rfl⟩
  | capTick lvl => exact ⟨_, _, rfl, rfl, rfl⟩
  | capFault =>
    simp only [exec, execCapFault]
    split <;> exact ⟨_, _, rfl, rfl, rfl⟩
  | capRdstatus => exact ⟨_, _, rfl, .returned s _⟩
  | capRdlen => exact ⟨_, _, rfl, .returned s _⟩
  | capRdsample idx =>
    simp only [exec, execCapRdsample]
    split <;> exact ⟨_, _, rfl, rfl, rfl⟩
  | repClear =>
    simp only [exec, execRepClear]
    split <;> exact ⟨_, _, rfl, rfl, rfl⟩
  | repPush val =>
    simp only [exec, execRepPush]
    split
    · exact ⟨_, _, rfl, rfl, rfl⟩
    · split <;> exact ⟨_, _, rfl, rfl, rfl⟩
  | repStart =>
    simp only [exec, execRepStart]
    split
    · exact ⟨_, _, rfl, rfl, rfl⟩
    · split <;> exact ⟨_, _, rfl, rfl, rfl⟩
  | repFire =>
    refine ⟨_, 0, rfl, ?_, ?_⟩
    · simp
    · simp [State.respond, Port.returned]
  | repFault =>
    simp only [exec, execRepFault]
    split
    · refine ⟨_, 0, rfl, ?_, ?_⟩
      · simp [replayAbort]
      · simp [replayAbort, State.respond, Port.returned]
    · exact ⟨_, _, rfl, rfl, rfl⟩
  | repRdstatus => exact ⟨_, _, rfl, .returned s _⟩
  | repRdlen => exact ⟨_, _, rfl, .returned s _⟩
  | pwrSet lvl => exact ⟨_, _, rfl, rfl, rfl⟩

/-- An operation's next state keeps the configuration and adds one response. -/
theorem exec_performed {i : Instr} {s t : State} (h : exec i s = .next t) : ∃ v, Performed s t v := by
  obtain ⟨u, v, hu, hp⟩ := exec_next i s
  rw [h] at hu
  cases hu
  exact ⟨v, hp⟩

end Sys2Proof.Machine
end

