-- ==== Sys2Proof/Laws/PerInstr.lean ====
section
/-! SUPPORT. The per-instruction family RoundTrip: the word an operation is encoded to decodes to that operation, with its
operand. -/

namespace Sys2Proof.Laws

/-- Decoding an operation's word gives the operation back. -/
def RoundTrip.Statement (i : Instr) : Prop := decode (encode i) = .ok i

/-- A bare operation's word. -/
theorem decodeBare_encode {i : Instr} (h : operandData i = 0) : decodeBare (encode i) i = .ok i := by
  simp [decodeBare, dataField_encode, h]

/-- A level operation's word. -/
theorem decodeLevel_encode {f : Bool → Instr} {lvl : Bool} (h : operandData (f lvl) = bit lvl) :
    decodeLevel (encode (f lvl)) f = .ok (f lvl) := by
  cases lvl <;> simp [decodeLevel, dataField_encode, h]

/-- Decoding is by the opcode of the operation. -/
theorem decode_encode_eq (i : Instr) : decode (encode i) = decodeOp (encode i) := by
  simp [decode, rsvField_encode]

theorem RoundTrip.nop : RoundTrip.Statement .nop := by
  simp only [RoundTrip.Statement, decode_encode_eq, decodeOp, opField_encode, opcode]
  exact decodeBare_encode rfl

theorem RoundTrip.capArm : RoundTrip.Statement .capArm := by
  simp only [RoundTrip.Statement, decode_encode_eq, decodeOp, opField_encode, opcode]
  exact decodeBare_encode rfl

theorem RoundTrip.capCancel : RoundTrip.Statement .capCancel := by
  simp only [RoundTrip.Statement, decode_encode_eq, decodeOp, opField_encode, opcode]
  exact decodeBare_encode rfl

theorem RoundTrip.capTick (lvl : Bool) : RoundTrip.Statement (.capTick lvl) := by
  simp only [RoundTrip.Statement, decode_encode_eq, decodeOp, opField_encode, opcode]
  exact decodeLevel_encode rfl

theorem RoundTrip.capFault : RoundTrip.Statement .capFault := by
  simp only [RoundTrip.Statement, decode_encode_eq, decodeOp, opField_encode, opcode]
  exact decodeBare_encode rfl

theorem RoundTrip.capRdstatus : RoundTrip.Statement .capRdstatus := by
  simp only [RoundTrip.Statement, decode_encode_eq, decodeOp, opField_encode, opcode]
  exact decodeBare_encode rfl

theorem RoundTrip.capRdlen : RoundTrip.Statement .capRdlen := by
  simp only [RoundTrip.Statement, decode_encode_eq, decodeOp, opField_encode, opcode]
  exact decodeBare_encode rfl

theorem RoundTrip.capRdsample (idx : BitVec 16) : RoundTrip.Statement (.capRdsample idx) := by
  simp [RoundTrip.Statement, decode_encode_eq, decodeOp, opField_encode, opcode, dataField_encode, operandData]

theorem RoundTrip.repClear : RoundTrip.Statement .repClear := by
  simp only [RoundTrip.Statement, decode_encode_eq, decodeOp, opField_encode, opcode]
  exact decodeBare_encode rfl

theorem RoundTrip.repPush (val : Sample) : RoundTrip.Statement (.repPush val) := by
  simp [RoundTrip.Statement, decode_encode_eq, decodeOp, opField_encode, opcode, dataField_encode, operandData]

theorem RoundTrip.repStart : RoundTrip.Statement .repStart := by
  simp only [RoundTrip.Statement, decode_encode_eq, decodeOp, opField_encode, opcode]
  exact decodeBare_encode rfl

theorem RoundTrip.repFire : RoundTrip.Statement .repFire := by
  simp only [RoundTrip.Statement, decode_encode_eq, decodeOp, opField_encode, opcode]
  exact decodeBare_encode rfl

theorem RoundTrip.repFault : RoundTrip.Statement .repFault := by
  simp only [RoundTrip.Statement, decode_encode_eq, decodeOp, opField_encode, opcode]
  exact decodeBare_encode rfl

theorem RoundTrip.repRdstatus : RoundTrip.Statement .repRdstatus := by
  simp only [RoundTrip.Statement, decode_encode_eq, decodeOp, opField_encode, opcode]
  exact decodeBare_encode rfl

theorem RoundTrip.repRdlen : RoundTrip.Statement .repRdlen := by
  simp only [RoundTrip.Statement, decode_encode_eq, decodeOp, opField_encode, opcode]
  exact decodeBare_encode rfl

theorem RoundTrip.pwrSet (lvl : Bool) : RoundTrip.Statement (.pwrSet lvl) := by
  simp only [RoundTrip.Statement, decode_encode_eq, decodeOp, opField_encode, opcode]
  exact decodeLevel_encode rfl

end Sys2Proof.Laws
end

