-- ==== Sys2Proof/Laws/Step.lean ====
section
/-! SUPPORT. What a step can do to the block, said once. -/

namespace Sys2Proof.Machine

/-- The captured train is a function of the capture unit. -/
theorem capturedTrain_of_cap {s t : State} (h : t.cap = s.cap) : t.capturedTrain = s.capturedTrain := by
  have hc : t.captured = s.captured := by
    funext i
    simp only [State.captured, h]
  simp only [State.capturedTrain, hc, h]

theorem SameBlock.refl (s : State) : SameBlock s s := ⟨rfl, rfl, rfl, rfl, rfl⟩

theorem SameBlock.symm {s t : State} (h : SameBlock s t) : SameBlock t s :=
  ⟨h.cfg.symm, h.cap.symm, h.rep.symm, h.pwr.symm, h.trace.symm⟩

theorem SameBlock.trans {s t u : State} (h : SameBlock s t) (k : SameBlock t u) : SameBlock s u :=
  ⟨k.cfg.trans h.cfg, k.cap.trans h.cap, k.rep.trans h.rep, k.pwr.trans h.pwr, k.trace.trans h.trace⟩

/-- What a delivery other than the reset event can have done to the block: nothing, or one operation. -/
inductive BlockChange (s t : State) : Prop where
  | kept (h : SameBlock s t)
  | performed (i : Instr) (u v : State) (hu : SameBlock s u) (h : exec i u = .next v) (ht : SameBlock v t)

/-- The HOST's own moves leave the block alone. -/
theorem sameBlock_of_port {s t : State} (h : ∃ p, t = s.setPort p) : SameBlock s t := by
  obtain ⟨p, rfl⟩ := h
  exact ⟨rfl, rfl, rfl, rfl, rfl⟩

theorem captureRead_sameBlock (n : Nat) (got : Train) (s : State) : SameBlock s (captureRead n got s) := by
  unfold captureRead
  split <;> exact ⟨rfl, rfl, rfl, rfl, rfl⟩

theorem capturePolled_sameBlock (s : State) : SameBlock s (capturePolled s) := by
  unfold capturePolled
  split
  · exact ⟨rfl, rfl, rfl, rfl, rfl⟩
  · split
    · split <;> exact ⟨rfl, rfl, rfl, rfl, rfl⟩
    · exact .refl s

theorem replayLine_sameBlock (l : Text) (s : State) : SameBlock s (replayLine l s) := by
  unfold replayLine
  split
  · exact .refl s
  · split
    · exact ⟨rfl, rfl, rfl, rfl, rfl⟩
    · split <;> exact ⟨rfl, rfl, rfl, rfl, rfl⟩

theorem replayPush_sameBlock (rest : Train) (s : State) : SameBlock s (replayPush rest s) := by
  cases rest <;> exact ⟨rfl, rfl, rfl, rfl, rfl⟩

theorem replayPolled_sameBlock (s : State) : SameBlock s (replayPolled s) := by
  unfold replayPolled
  split
  · split <;> exact ⟨rfl, rfl, rfl, rfl, rfl⟩
  · exact .refl s

/-- A delivered word is one operation, or it is ignored. -/
theorem performWord_cases {a : Agent} {w : OpWord} {s t : State} (h : performWord a w s = .next t) :
    (∃ i, decode w = .ok i ∧ i.mayBeIssuedBy a = true ∧ exec i s = .next t) ∨ t = s.respond 0 := by
  unfold performWord at h
  split at h
  · rename_i i hi
    split at h
    · exact .inl ⟨i, hi, ‹_›, h⟩
    · cases h
      exact .inr rfl
  · cases h
    exact .inr rfl

/-- A delivered word always completes. -/
theorem performWord_next (a : Agent) (w : OpWord) (s : State) : ∃ t, performWord a w s = .next t := by
  unfold performWord
  split
  · split
    · rename_i i hi _
      obtain ⟨t, _, h, _⟩ := exec_next i s
      exact ⟨t, h⟩
    · exact ⟨_, rfl⟩
  · exact ⟨_, rfl⟩

theorem performWord_block {a : Agent} {w : OpWord} {s t : State} (h : performWord a w s = .next t) :
    BlockChange s t := by
  rcases performWord_cases h with ⟨i, _, _, hi⟩ | rfl
  · exact .performed i s t (.refl s) hi (.refl t)
  · exact .kept ⟨rfl, rfl, rfl, rfl, rfl⟩

theorem afterwards_next {o : Out} {f : State → State} {t : State} (h : afterwards o f = .next t) :
    ∃ u, o = .next u ∧ t = f u := by
  cases o with
  | next u => exact ⟨u, rfl, by cases h; rfl⟩
  | fault r => cases h
  | refused r => cases h

/-- A turn that delivers a word and then moves the session on. -/
theorem turn_block {a : Agent} {w : OpWord} {s t : State} {f : State → State} (hf : ∀ u, SameBlock u (f u))
    (h : afterwards (performWord a w s) f = .next t) : BlockChange s t := by
  obtain ⟨u, hu, rfl⟩ := afterwards_next h
  rcases performWord_block hu with k | ⟨i, x, y, hx, hi, hy⟩
  · exact .kept (k.trans (hf u))
  · exact .performed i x y hx hi (hy.trans (hf u))

theorem turn_next {a : Agent} {w : OpWord} {s : State} {f : State → State} :
    ∃ t, afterwards (performWord a w s) f = .next t := by
  obtain ⟨u, hu⟩ := performWord_next a w s
  exact ⟨f u, by rw [hu]; rfl⟩

theorem captureTurn_next (s : State) : ∃ t, captureTurn s = .next t := by
  unfold captureTurn
  split
  · exact ⟨_, rfl⟩
  · split
    · exact ⟨_, rfl⟩
    · exact turn_next
  · exact turn_next
  · exact turn_next
  · exact turn_next

theorem replayTurn_next (s : State) : ∃ t, replayTurn s = .next t := by
  unfold replayTurn
  split
  · exact ⟨_, rfl⟩
  · split <;> exact ⟨_, rfl⟩
  · exact turn_next
  · exact turn_next
  · exact ⟨_, rfl⟩
  · exact turn_next
  · exact turn_next
  · exact turn_next

theorem captureTurn_block {s t : State} (h : captureTurn s = .next t) : BlockChange s t := by
  unfold captureTurn at h
  split at h
  · cases h
    exact .kept (.refl s)
  · split at h
    · cases h
      exact .kept ⟨rfl, rfl, rfl, rfl, rfl⟩
    · exact turn_block (f := fun t => t.setCaptureSession .poll) (fun u => ⟨rfl, rfl, rfl, rfl, rfl⟩) h
  · exact turn_block capturePolled_sameBlock h
  · exact turn_block (fun u => captureRead_sameBlock _ _ u) h
  · exact turn_block (fun u => captureRead_sameBlock _ _ u) h

theorem replayTurn_block {s t : State} (h : replayTurn s = .next t) : BlockChange s t := by
  unfold replayTurn at h
  split at h
  · cases h
    exact .kept (.refl s)
  · split at h
    · cases h
      exact .kept ⟨rfl, rfl, rfl, rfl, rfl⟩
    · rename_i c cs _
      cases h
      have h1 : SameBlock s (s.setInput (takeLine (c :: cs)).2) := ⟨rfl, rfl, rfl, rfl, rfl⟩
      exact .kept (h1.trans (replayLine_sameBlock _ _))
  · refine turn_block (fun u => ?_) h
    split <;> exact ⟨rfl, rfl, rfl, rfl, rfl⟩
  · exact turn_block (fun u => replayPush_sameBlock _ u) h
  · cases h
    exact .kept ⟨rfl, rfl, rfl, rfl, rfl⟩
  · exact turn_block (fun u => replayPush_sameBlock _ u) h
  · exact turn_block (f := fun t => t.setReplaySession .awaitEnd) (fun u => ⟨rfl, rfl, rfl, rfl, rfl⟩) h
  · exact turn_block replayPolled_sameBlock h

/-- Every delivery completes. -/
theorem deliver_next (d : Delivery) (s : State) : ∃ t, deliver d s = .next t := by
  cases d with
  | word a w => exact performWord_next a w s
  | lineTick high => exact performWord_next _ _ s
  | captureTurn => exact captureTurn_next s
  | replayTurn => exact replayTurn_next s
  | reset | startCapture | startReplay input | operatorStop => exact ⟨_, rfl⟩

theorem deliver_block {d : Delivery} {s t : State} (h : deliver d s = .next t) :
    (d = .reset ∧ t = s.resetBlock) ∨ (d ≠ .reset ∧ BlockChange s t) := by
  cases d with
  | word a w => exact .inr ⟨by simp, performWord_block h⟩
  | lineTick high => exact .inr ⟨by simp, performWord_block h⟩
  | reset =>
    cases h
    exact .inl ⟨rfl, rfl⟩
  | startCapture =>
    cases h
    refine .inr ⟨by simp, .kept ?_⟩
    show SameBlock s (startCapture s)
    unfold startCapture
    split <;> exact ⟨rfl, rfl, rfl, rfl, rfl⟩
  | startReplay input =>
    cases h
    refine .inr ⟨by simp, .kept ?_⟩
    show SameBlock s (startReplay input s)
    unfold startReplay
    split <;> exact ⟨rfl, rfl, rfl, rfl, rfl⟩
  | operatorStop =>
    cases h
    exact .inr ⟨by simp, .kept ⟨rfl, rfl, rfl, rfl, rfl⟩⟩
  | captureTurn => exact .inr ⟨by simp, captureTurn_block h⟩
  | replayTurn => exact .inr ⟨by simp, replayTurn_block h⟩

/-- What one step can do to the block: the reset event when that is what is delivered, nothing, or one operation. -/
theorem step_block {s t : State} (h : step s = .next t) : configOk s.cfg = true ∧
    ((∃ ds, s.port.stream = .reset :: ds) ∧ SameBlock s.resetBlock t ∨
      (∀ ds, s.port.stream ≠ .reset :: ds) ∧ BlockChange s t) := by
  unfold step at h
  split at h
  · refine ⟨‹_›, ?_⟩
    unfold deliverNext at h
    split at h
    · rename_i hs
      cases h
      exact .inr ⟨by simp [hs], .kept (.refl s)⟩
    · rename_i d ds hds
      have hs : SameBlock s (s.setStream ds) := ⟨rfl, rfl, rfl, rfl, rfl⟩
      rcases deliver_block h with ⟨rfl, rfl⟩ | ⟨hd, k | ⟨i, x, y, hx, hi, hy⟩⟩
      · exact .inl ⟨⟨ds, hds⟩, ⟨rfl, rfl, rfl, rfl, rfl⟩⟩
      · exact .inr ⟨by simp [hds, hd], .kept (hs.trans k)⟩
      · exact .inr ⟨by simp [hds, hd], .performed i x y (hs.trans hx) hi hy⟩
  · cases h

end Sys2Proof.Machine
end

