-- ==== Sys2Proof/Laws/Text.lean ====
section
/-! SUPPORT. The digits of the codec, the fields a host reads from a status word, and a turn of a session as one
operation. -/

namespace Sys2Proof.Machine

/-! ## Digits -/

/-- A written digit reads back (40_codec.md R100, R101). -/
theorem hexVal_hexDigit : ∀ n : BitVec 4, hexVal (hexDigit n) = some n := by decide

/-- What is written is an upper-case digit (30_encoding.md R81). -/
theorem upperHex_hexDigit : ∀ n : BitVec 4, upperHex (hexDigit n) = true := by decide

/-- A character has a value exactly when it is a hex digit, and the value is written in upper case (R101). -/
theorem hexDigit_hexVal :
    ∀ c : BitVec 8, (hexVal c).map hexDigit = if isHexChar c then some (toUpperHex c) else none := by decide

theorem toUpperHex_of_upperHex : ∀ c : BitVec 8, upperHex c = true → toUpperHex c = c := by decide

/-- The four characters of one sample's text. -/
theorem encodeTrain_cons (v : Sample) (t : Train) : encodeTrain (v :: t) =
    hexDigit ((v.extractLsb' 0 8).extractLsb' 4 4) :: hexDigit ((v.extractLsb' 0 8).extractLsb' 0 4) ::
      hexDigit ((v.extractLsb' 8 8).extractLsb' 4 4) :: hexDigit ((v.extractLsb' 8 8).extractLsb' 0 4) ::
        encodeTrain t := rfl

/-! ## Status fields -/

theorem statusRState_idle (s : State) : statusRState (repStatus s) = 0 ↔ s.rep.rstate = .idle := by
  simp only [statusRState, repStatus]
  cases s.rep.rstate <;> cases s.rep.lastResult <;> cases s.rep.pushOvf <;> cases s.rep.carrierEn <;> decide

theorem statusLastResult_aborted (s : State) : statusLastResult (repStatus s) = 2 ↔ s.rep.lastResult = .aborted := by
  simp only [statusLastResult, repStatus]
  cases s.rep.rstate <;> cases s.rep.lastResult <;> cases s.rep.pushOvf <;> cases s.rep.carrierEn <;> decide

theorem statusCState_done (s : State) : statusCState (capStatus s) = 3 ↔ s.cap.cstate = .done := by
  simp only [statusCState, capStatus]
  cases s.cap.cstate <;> cases s.cap.abortReason <;> cases s.cap.level <;> cases s.cap.cancelReq <;> cases s.pwr <;>
    decide

theorem statusCState_aborted (s : State) : statusCState (capStatus s) = 4 ↔ s.cap.cstate = .aborted := by
  simp only [statusCState, capStatus]
  cases s.cap.cstate <;> cases s.cap.abortReason <;> cases s.cap.level <;> cases s.cap.cancelReq <;> cases s.pwr <;>
    decide

theorem statusAbortReason_cancelled (s : State) :
    statusAbortReason (capStatus s) = 1 ↔ s.cap.abortReason = .cancelled := by
  simp only [statusAbortReason, capStatus]
  cases s.cap.cstate <;> cases s.cap.abortReason <;> cases s.cap.level <;> cases s.cap.cancelReq <;> cases s.pwr <;>
    decide

/-! ## Turns -/

/-- The agent that delivered an operation reads its response. -/
@[simp] theorem lastResponse_respond (s : State) (v : Response) : (s.respond v).lastResponse = v := by
  simp [State.lastResponse]

/-- A step that answers moves the session on from the responded state. -/
@[simp] theorem afterwards_answer (v : Response) (s : State) (f : State → State) :
    afterwards (answer v s) f = .next (f (s.respond v)) := rfl

/-- Reading a completed train reports nothing (43_system_and_text.md R213). -/
@[simp] theorem captureRead_diagnostics (n : Nat) (got : Train) (s : State) :
    (captureRead n got s).port.diagnostics = s.port.diagnostics := by
  unfold captureRead
  split <;> rfl

/-- Moving on from a poll writes nothing to the output stream (R213). -/
@[simp] theorem capturePolled_output (s : State) : (capturePolled s).port.output = s.port.output := by
  unfold capturePolled
  split
  · rfl
  · split
    · split <;> rfl
    · rfl

/-- An operation itself neither writes to the output stream nor reports. -/
theorem exec_port_text {i : Instr} {s t : State} (h : exec i s = .next t) :
    t.port.output = s.port.output ∧ t.port.diagnostics = s.port.diagnostics := by
  obtain ⟨v, hp⟩ := exec_performed h
  rw [hp.port]
  exact ⟨rfl, rfl⟩

end Sys2Proof.Machine
end

