-- ==== Sys2Proof/Laws/Units.lean ====
section
/-! SUPPORT. What one sampling tick and one expiry do in each case (60_exceptions.md R243, 42_replay.md R173), and the
fields of the shared steps of the replay sequencer. -/

namespace Sys2Proof.Machine

/-! ## The sampling tick, in the order of its checks -/

theorem tickCapture_ignored {c : Capture} (h : c.active = false) (cfg : Config) (lvl : Bool) :
    tickCapture cfg lvl c = c := by
  unfold Capture.active at h
  unfold tickCapture
  split <;> simp_all

theorem tickCapture_cancelled {c : Capture} (h : c.active = true) (hr : c.cancelReq = true) (cfg : Config) (lvl : Bool) :
    tickCapture cfg lvl c = capAbort .cancelled c := by
  unfold Capture.active at h
  unfold tickCapture
  split <;> simp_all

theorem tickCapture_wait {c : Capture} (h : c.cstate = .wait) (hr : c.cancelReq = false) (cfg : Config) (lvl : Bool) :
    tickCapture cfg lvl c = tickWait lvl c := by
  simp [tickCapture, h, hr]

theorem tickCapture_count {c : Capture} (h : c.cstate = .count) (hr : c.cancelReq = false) (cfg : Config) (lvl : Bool) :
    tickCapture cfg lvl c = tickCount cfg lvl c := by
  simp [tickCapture, h, hr]

theorem timeoutCheck_below {cfg : Config} {c : Capture} (h : c.count.toNat < cfg.timeout) : timeoutCheck cfg c = c := by
  simp [timeoutCheck, Nat.not_le.2 h]

theorem timeoutCheck_reached {cfg : Config} {c : Capture} (h : cfg.timeout ≤ c.count.toNat) :
    timeoutCheck cfg c = pushSample cfg.cbufDepth c c.count fun c' => { c' with cstate := .done } := by
  simp [timeoutCheck, h]

/-- The count of a run below the timeout takes one more PACE without wrapping (41_capture.md R134). -/
theorem count_add_pace {cfg : Config} (hc : configOk cfg = true) {n : Sample} (h : n.toNat < cfg.timeout) :
    (BitVec.ofNat 16 (n.toNat + cfg.pace)).toNat = n.toNat + cfg.pace := by
  have ht := ((configOk_iff cfg).1 hc).timeout
  rw [BitVec.toNat_ofNat]
  omega

/-- A level change restarts the count below the timeout, so the timeout check never fires there (41_capture.md R135). -/
theorem timeoutCheck_restart {cfg : Config} (hc : configOk cfg = true) {c : Capture} (h : c.count = 0) :
    timeoutCheck cfg c = c := by
  have ht := ((configOk_iff cfg).1 hc).timeout
  apply timeoutCheck_below
  rw [h]
  exact ht.1

/-! ## The replay sequencer -/

@[simp] theorem beginPair_cfg (r : Replay) (s : State) : (beginPair r s).cfg = s.cfg := rfl
@[simp] theorem beginPair_cap (r : Replay) (s : State) : (beginPair r s).cap = s.cap := rfl
@[simp] theorem beginPair_rep (r : Replay) (s : State) :
    (beginPair r s).rep = { r with carrierEn := true, rstate := .on } := rfl
@[simp] theorem beginPair_pwr (r : Replay) (s : State) : (beginPair r s).pwr = s.pwr := rfl
@[simp] theorem beginPair_port (r : Replay) (s : State) : (beginPair r s).port = s.port := rfl
@[simp] theorem beginPair_draws (r : Replay) (s : State) : (beginPair r s).draws = s.draws := rfl

/-- Beginning a pair enables the carrier before it arms the on-duration. -/
@[simp] theorem beginPair_trace (r : Replay) (s : State) : (beginPair r s).trace =
    s.trace ++ [.carrierOn, .arm (duration s.cfg (replaySample s r.ridx.toNat))] := by
  simp [beginPair]

@[simp] theorem beginGap_cfg (r : Replay) (s : State) : (beginGap r s).cfg = s.cfg := rfl
@[simp] theorem beginGap_cap (r : Replay) (s : State) : (beginGap r s).cap = s.cap := rfl
@[simp] theorem beginGap_rep (r : Replay) (s : State) : (beginGap r s).rep = { r with rstate := .gap } := rfl
@[simp] theorem beginGap_pwr (r : Replay) (s : State) : (beginGap r s).pwr = s.pwr := rfl
@[simp] theorem beginGap_port (r : Replay) (s : State) : (beginGap r s).port = s.port := rfl
@[simp] theorem beginGap_draws (r : Replay) (s : State) : (beginGap r s).draws = s.draws := rfl
@[simp] theorem beginGap_trace (r : Replay) (s : State) : (beginGap r s).trace = s.trace ++ [.arm s.cfg.gapUnits] := rfl

/-- Stepping past a pair keeps the pointer within 16 bits. -/
theorem ridx_add_two {x n : BitVec 16} (h : x.toNat + 1 < n.toNat) : (x + 2).toNat = x.toNat + 2 := by
  have hn := n.isLt
  rw [BitVec.toNat_add]
  have : (2 : BitVec 16).toNat = 2 := rfl
  omega

theorem fireReplay_idle {s : State} (h : s.rep.rstate = .idle) : fireReplay s = s := by simp [fireReplay, h]

theorem fireReplay_off_more {s : State} (h : s.rep.rstate = .off)
    (hm : (s.rep.ridx + 2).toNat + 1 < s.rep.rlen.toNat) :
    fireReplay s = beginPair { s.rep with ridx := s.rep.ridx + 2 } s := by
  simp only [fireReplay, h, hm, if_true]

theorem fireReplay_off_last {s : State} (h : s.rep.rstate = .off)
    (hm : ¬ (s.rep.ridx + 2).toNat + 1 < s.rep.rlen.toNat) :
    fireReplay s = beginGap { s.rep with ridx := s.rep.ridx + 2 } s := by
  simp only [fireReplay, h, hm, if_false]

theorem fireReplay_gap {s : State} (h : s.rep.rstate = .gap) :
    fireReplay s = s.setRep { s.rep with rstate := .idle, lastResult := .completed } := by
  simp [fireReplay, h]

@[simp] theorem replayAbort_rep (s : State) :
    (replayAbort s).rep = { s.rep with rstate := .idle, carrierEn := false, lastResult := .aborted } := by
  unfold replayAbort quietCarrier
  split <;> simp_all

@[simp] theorem replayAbort_trace (s : State) :
    (replayAbort s).trace = s.trace ++ (if s.rep.carrierEn then [.carrierOff] else []) := by
  unfold replayAbort quietCarrier
  split <;> simp_all

end Sys2Proof.Machine
end

