-- ==== Sys2Proof/Tests/Slice0.lean ====
section
/-! SUPPORT. Tests: words written out from the encoding tables, the vectors of 95_test_vectors.md one step at a time, and
for each statement that has hypotheses a state that meets them. -/

namespace Sys2Proof.Tests

open Sys2Proof Sys2Proof.Machine

/-! ## Helpers -/

/-- The configuration of 95_test_vectors.md. -/
def cfg : Config :=
  { Config.nominal with cbufDepth := 8, rbufDepth := 8, pace := 1, timeout := 5, tickUnits := 26, gapUnits := 1000 }

/-- A buffer that holds a train from index 0. -/
def holding (train : Train) : Memory := train.zipIdx.map fun p => (p.2, p.1)

/-- The capture unit in a state, with the samples pushed so far. -/
def captureIn (c : CState) (lvl : Bool) (count : Sample) (train : Train) : Capture :=
  { Capture.reset with
    cstate := c, level := lvl, count := count, cbuf := holding train, clen := BitVec.ofNat 16 train.length }

/-- The replay unit in a state at a pair, with a loaded train. -/
def replayIn (r : RState) (ridx : BitVec 16) (train : Train) : Replay :=
  { Replay.reset with
    rstate := r, ridx := ridx, carrierEn := r == .on, rbuf := holding train, rlen := BitVec.ofNat 16 train.length }

/-- A state after reset with the capture unit replaced. -/
def capIn (k : Config) (c : Capture) : State := (State.resetWith k).setCap c

/-- A state after reset with the replay unit replaced. -/
def repIn (k : Config) (r : Replay) : State := (State.resetWith k).setRep r

/-- The state after one operation. -/
def after (i : Instr) (s : State) : Option State :=
  match exec i s with
  | .next t => some t
  | .fault _ => none
  | .refused _ => none

/-- The state after one step. -/
def stepped (s : State) : Option State :=
  match step s with
  | .next t => some t
  | .fault _ => none
  | .refused _ => none

/-- A state whose next deliveries are given. -/
def given (s : State) (ds : List Delivery) : State := s.setStream ds

/-! ## Well-formed words (30_encoding.md R71 to R74; SYS-4 to SYS-7, SYS-9) -/

theorem test_accepts_every_issuer : wellFormedWord .host 0x10000000 = true ∧ wellFormedWord .env 0x12000001 = true ∧
    wellFormedWord .host 0x00000000 = true ∧ wellFormedWord .env 0x00000000 = true ∧
    wellFormedWord .host 0x1600FFFF = true ∧ wellFormedWord .host 0x2100FFFF = true := by decide

theorem test_refuses_reserved_opcode : wellFormedWord .host 0x01000000 = false := by decide

theorem test_refuses_reserved_bits : wellFormedWord .host 0x10010000 = false := by decide

theorem test_refuses_data_of_bare_operation : wellFormedWord .host 0x00000001 = false := by decide

theorem test_refuses_data_above_level :
    wellFormedWord .env 0x12000002 = false ∧ wellFormedWord .host 0x30008001 = false := by decide

theorem test_refuses_wrong_agent :
    wellFormedWord .host 0x12000001 = false ∧ wellFormedWord .env 0x10000000 = false := by decide

theorem test_rows_have_distinct_opcodes : opTable.Pairwise fun a b => a.op ≠ b.op := by decide

/-- Both ends of each reserved range of R74. -/
theorem test_reserved_ranges : ∀ op ∈ [0x01, 0x0F, 0x17, 0x1F, 0x27, 0x2F, 0x31, 0xFF],
    decode (BitVec.ofNat 32 (op * 2 ^ 24)) = .error .reservedOpcode := by decide

/-! ## Words written out from 30_encoding.md R70, R71 -/

theorem test_decode_capture_words :
    decode 0b00010000_00000000_0000000000000000 = .ok .capArm ∧
    decode 0b00010001_00000000_0000000000000000 = .ok .capCancel ∧
    decode 0b00010010_00000000_0000000000000000 = .ok (.capTick false) ∧
    decode 0b00010010_00000000_0000000000000001 = .ok (.capTick true) ∧
    decode 0b00010011_00000000_0000000000000000 = .ok .capFault ∧
    decode 0b00010100_00000000_0000000000000000 = .ok .capRdstatus ∧
    decode 0b00010101_00000000_0000000000000000 = .ok .capRdlen ∧
    decode 0b00010110_00000000_1000000000000011 = .ok (.capRdsample 0x8003) := by decide

theorem test_decode_replay_words :
    decode 0b00100000_00000000_0000000000000000 = .ok .repClear ∧
    decode 0b00100001_00000000_0000000000001110 = .ok (.repPush 14) ∧
    decode 0b00100010_00000000_0000000000000000 = .ok .repStart ∧
    decode 0b00100011_00000000_0000000000000000 = .ok .repFire ∧
    decode 0b00100100_00000000_0000000000000000 = .ok .repFault ∧
    decode 0b00100101_00000000_0000000000000000 = .ok .repRdstatus ∧
    decode 0b00100110_00000000_0000000000000000 = .ok .repRdlen := by decide

theorem test_decode_system_words :
    decode 0b00000000_00000000_0000000000000000 = .ok .nop ∧
    decode 0b00110000_00000000_0000000000000000 = .ok (.pwrSet false) ∧
    decode 0b00110000_00000000_0000000000000001 = .ok (.pwrSet true) := by decide

/-- The encoder on the examples of R83. -/
theorem test_encode_examples : encode .capArm = 0x10000000 ∧ encode (.capTick true) = 0x12000001 ∧
    encode (.repPush 0x0E) = 0x2100000E ∧ encode (.capRdsample 3) = 0x16000003 := by decide

/-- A table word that is shorter than the instruction has zeros above. -/
theorem test_table_word :
    decodeTableWord 32 0x23000000 = some .repFire ∧ decodeTableWord 32 0x01000000 = none := by decide

/-- The word placed by withFetchWord is the next one performed. -/
theorem test_fetch_word_runs :
    (stepped (State.reset.withFetchWord 32 0x30000001)).map (fun t => (t.pwr, t.trace, t.port.stream)) =
      some (true, [.power true], []) := by decide

/-! ## The configuration (00_scope.md R6; 93_implementation_defined.md K1 to K4) -/

theorem test_refused_configurations :
    configOk { cfg with pace := 0 } = false ∧ configOk { cfg with cbufDepth := 0 } = false ∧
    configOk { cfg with rbufDepth := 65536 } = false ∧ configOk { cfg with timeout := 0 } = false ∧
    configOk { cfg with timeout := 65535, pace := 2 } = false ∧ configOk { cfg with tickUnits := 65537 } = false ∧
    configOk { cfg with gapUnits := 2 ^ 32 } = false ∧ configOk { cfg with dutyOnUnits := 27 } = false := by decide

theorem test_accepted_configurations : configOk cfg = true ∧ configOk Config.nominal = true ∧
    configOk { cfg with cbufDepth := 65535, rbufDepth := 1, timeout := 65535, tickUnits := 65536, gapUnits := 0 } = true ∧
    configOk { cfg with dutyOnUnits := 0, carrierPeriodUnits := 1 } = true := by decide

/-! ## System operations -/

/-- SYS-1. -/
theorem test_nop : (after .nop (State.resetWith cfg)).map (fun t => (t.cap, t.rep, t.trace, t.port.responses)) =
    some (Capture.reset, Replay.reset, [], [0]) := by decide

/-- SYS-3, and R211: the event is emitted when the level does not change. -/
theorem test_pwrSet_during_count :
    (after (.pwrSet false) (capIn cfg (captureIn .count true 2 []))).map (fun t => (t.pwr, t.trace, t.cap.cstate)) =
      some (false, [.power false], .count) := by decide

/-- SYS-2: the power bit is bit 7 of the capture status word. -/
theorem test_pwrSet_sets_status_bit :
    (after (.pwrSet true) (State.resetWith cfg)).map capStatus = some 0x0088 := by decide

/-- The derived outputs of R37: before a cycle, in one, after one, and during a train. -/
theorem test_derived_outputs : Capture.reset.active = false ∧ Capture.reset.finished = false ∧
    (captureIn .wait true 0 []).active = true ∧ (captureIn .aborted true 0 []).finished = true ∧
    Replay.reset.busy = false ∧ (replayIn .gap 0 [1]).busy = true := by decide

/-- The boot sequence of R272 leaves the receiver powered and a cycle in WAIT. -/
theorem test_boot_for_capture :
    (match Host.Core.run Sys2Proof.core 3 (given (State.resetWith cfg) bootForCapture) with
      | .next t => some (State.ended t, State.pwr t, (State.cap t).cstate)
      | .fault _ => none
      | .refused _ => none) = some (true, true, .wait) := by decide

/-! ## Capture operations -/

/-- CAP-14: the old entries stay. -/
theorem test_capArm_from_done :
    (after .capArm (capIn cfg (captureIn .done true 5 [4, 3, 5]))).map (fun t => (t.cap.clen, capStatus t, t.cap.cbuf)) =
      some (0, 0x0009, holding [4, 3, 5]) := by decide

/-- CAP-11. -/
theorem test_capArm_ignored_in_count :
    (after .capArm (capIn cfg (captureIn .count true 1 []))).map (fun t => (t.cap.count, capStatus t)) =
      some (1, 0x000A) := by decide

/-- CAP-8, after the cancel. -/
theorem test_capCancel : (after .capCancel (capIn cfg (captureIn .count false 0 [1]))).map capStatus =
    some 0x0012 := by decide

/-- CAP-10. -/
theorem test_capCancel_ignored_when_stopped :
    (after .capCancel (State.resetWith cfg)).map capStatus = some 0x0008 := by decide

/-- CAP-4, its last tick: count steps from 3 to 6, past TIMEOUT. -/
theorem test_capTick_passes_timeout :
    (after (.capTick true) (capIn { cfg with pace := 3 } (captureIn .count true 3 []))).map
      (fun t => (t.cap.cbuf, t.cap.count, capStatus t)) = some (holding [6], 6, 0x000B) := by decide

/-- CAP-6, its last tick: a full buffer aborts, and level and count stay. -/
theorem test_capTick_overflow :
    (after (.capTick false) (capIn { cfg with cbufDepth := 2, timeout := 9 } (captureIn .count true 1 [1, 1]))).map
      (fun t => (t.cap.clen, t.cap.count, capStatus t)) = some (2, 1, 0x006C) := by decide

/-- CAP-9. -/
theorem test_capFault : (after .capFault (capIn cfg (captureIn .count false 0 [1]))).map
    (fun t => (t.cap.clen, capStatus t)) = some (1, 0x0044) := by decide

/-- R138: a fault with a cancel requested records PERIPH. -/
theorem test_capFault_before_cancel_is_seen :
    (after .capFault (capIn cfg { captureIn .count true 0 [] with cancelReq := true })).map capStatus =
      some 0x004C := by decide

/-- SYS-8. -/
theorem test_capRdstatus :
    (after .capRdstatus (State.resetWith cfg)).map (fun t => t.port.responses) = some [0x0008] := by decide

/-- CAP-13. -/
theorem test_capRdlen : (after .capRdlen (capIn cfg (captureIn .done true 5 [4, 3, 5]))).map
    (fun t => t.port.responses) = some [3] := by decide

/-- CAP-13. -/
theorem test_capRdsample : (after (.capRdsample 1) (capIn cfg (captureIn .done true 5 [4, 3, 5]))).map
    (fun t => t.port.responses) = some [3] := by decide

/-- CAP-13: at clen the operation completes and draws a value; which one is not said. -/
theorem test_capRdsample_at_length :
    (after (.capRdsample 3) (capIn cfg (captureIn .done true 5 [4, 3, 5]))).map
      (fun t => (t.draws, t.port.responses.length, t.cap.clen)) = some (1, 1, 3) := by decide

/-! ## Replay operations -/

/-- REP-13. -/
theorem test_repClear : (after .repClear (repIn cfg { replayIn .idle 0 [1, 2] with pushOvf := true })).map
    (fun t => (t.rep.rlen, repStatus t)) = some (0, 0x0000) := by decide

/-- REP-9. -/
theorem test_repClear_ignored_when_busy :
    (after .repClear (repIn cfg (replayIn .on 0 [10, 20]))).map (fun t => (t.rep.rlen, repStatus t)) =
      some (2, 0x0005) := by decide

/-- R171, its example. -/
theorem test_repPush : (after (.repPush 10) (State.resetWith cfg)).map (fun t => (t.rep.rbuf, t.rep.rlen)) =
    some (holding [10], 1) := by decide

/-- REP-10, the push that does not fit. -/
theorem test_repPush_full : (after (.repPush 3) (repIn { cfg with rbufDepth := 2 } (replayIn .idle 0 [1, 2]))).map
    (fun t => (t.rep.rbuf, t.rep.rlen, repStatus t)) = some (holding [1, 2], 2, 0x0008) := by decide

/-- REP-1, its first step. -/
theorem test_repStart : (after .repStart (repIn cfg (replayIn .idle 0 [10, 20, 5]))).map
    (fun t => (t.trace, repStatus t)) = some ([.carrierOn, .arm 260], 0x0005) := by decide

/-- REP-3: a lone mark is not emitted. -/
theorem test_repStart_lone_mark : (after .repStart (repIn cfg (replayIn .idle 0 [10]))).map
    (fun t => (t.trace, repStatus t)) = some ([.arm 1000], 0x0003) := by decide

/-- REP-4, its second step: the carrier goes off before the off-duration is armed. -/
theorem test_repFire_in_on : (after .repFire (repIn cfg (replayIn .on 2 [1, 2, 3, 4]))).map
    (fun t => (t.trace, t.rep.ridx, repStatus t)) = some ([.carrierOff, .arm 104], 2, 0x0002) := by decide

/-- REP-2: after the last pair the gap, not the odd last element. -/
theorem test_repFire_into_gap : (after .repFire (repIn cfg (replayIn .off 0 [10, 20, 5]))).map
    (fun t => (t.trace, t.rep.ridx, repStatus t)) = some ([.arm 1000], 2, 0x0003) := by decide

/-- REP-7. -/
theorem test_repFault_in_on : (after .repFault (repIn cfg (replayIn .on 0 [10, 20, 5]))).map
    (fun t => (t.trace, t.rep.rlen, repStatus t)) = some ([.carrierOff], 3, 0x0020) := by decide

/-- REP-8: the carrier was off. -/
theorem test_repFault_in_off : (after .repFault (repIn cfg (replayIn .off 0 [10, 20, 30, 40]))).map
    (fun t => (t.trace, repStatus t)) = some ([], 0x0020) := by decide

/-- P2, its first status read. -/
theorem test_repRdstatus : (after .repRdstatus (repIn cfg (replayIn .on 0 [10, 20, 5]))).map
    (fun t => t.port.responses) = some [0x0005] := by decide

/-- P2. -/
theorem test_repRdlen : (after .repRdlen (repIn cfg (replayIn .idle 0 [10, 20, 5]))).map
    (fun t => t.port.responses) = some [3] := by decide

/-! ## Codec (L1-1 to L1-5, ENC, DEC, TTU) -/

theorem test_encode : encodeTrain [132, 66] = text "84004200".toList ∧
    encodeTrain [0xABCD, 0x00FF] = text "CDABFF00".toList ∧ encodeTrain [0x1234] = text "3412".toList ∧
    encodeTrain [] = [] := by decide

theorem test_decode_train : decodeText (text "840042000E0010000E0010000C0032000E0032000C00".toList) =
    .ok [132, 66, 14, 16, 14, 16, 12, 50, 14, 50, 12] := by decide

theorem test_decode_lower_case : decodeText (text "abcd".toList) = .ok [0xCDAB] := by decide

theorem test_decode_length_first : decodeText (text "XYZ".toList) = .error .malformedGroupLength ∧
    decodeText [] = .error .malformedGroupLength ∧ decodeText (text "84004".toList) = .error .malformedGroupLength := by
  decide

theorem test_decode_bad_digit : decodeText (text "34G2".toList) = .error .invalidHexDigit ∧
    decodeText (text "00 0".toList) = .error .invalidHexDigit := by decide

theorem test_time_units : toTimeUnits cfg [10, 20, 5] = [260, 520, 130] ∧
    toTimeUnits { cfg with tickUnits := 65536 } [65535] = [4294901760] := by decide

/-! ## Text port and assembler -/

/-- TXT-6: the CR is stripped. -/
theorem test_strip : strip (text " \t0A00".toList ++ [0x0D]) = text "0A00".toList ∧
    strip (text " \t ".toList) = [] := by decide

/-- TXT-7: the last line counts without an LF. -/
theorem test_lines : takeLine (text "0A\n0B".toList) = (text "0A".toList, text "0B".toList) ∧
    takeLine (text "0B".toList) = (text "0B".toList, []) := by decide

/-- TXT-1. -/
theorem test_capture_output : captureOutput [4, 3, 5] = text "040003000500\n\n".toList := by decide

/-- R84, with a comment. -/
theorem test_assemble_load : assemble (text "REP.LOAD 10, 0x14 ; two".toList) =
    some [.word .host 0x20000000, .word .host 0x2100000A, .word .host 0x21000014] := by decide

/-- R83, R84. -/
theorem test_assemble_ticks : assemble (text "RESET\nCAP.TICKS 1, 2".toList) =
    some [.reset, .word .env 0x12000001, .word .env 0x12000001] := by decide

/-- An operand that is not in range, and an operand of an operation that takes none. -/
theorem test_assemble_refuses : assemble (text "REP.PUSH 65536".toList) = none ∧
    assemble (text "CAP.TICK 2".toList) = none ∧ assemble (text "NOP 0".toList) = none := by decide

/-! ## Witnesses: for each statement that has hypotheses, inputs that meet them, one for each clause -/

theorem capInv_counting : CaptureInv (capIn cfg (captureIn .count true 4 [4, 3])) := by
  constructor <;> first | decide | (constructor <;> decide)

/-- One entry is left. -/
theorem capInv_one_left : CaptureInv (capIn { cfg with cbufDepth := 3 } (captureIn .count true 4 [4, 3])) := by
  constructor <;> first | decide | (constructor <;> decide)

theorem capInv_full : CaptureInv (capIn { cfg with cbufDepth := 2 } (captureIn .count true 4 [4, 3])) := by
  constructor <;> first | decide | (constructor <;> decide)

theorem capInv_wait : CaptureInv (capIn cfg (captureIn .wait true 0 [])) := by
  constructor <;> first | decide | (constructor <;> decide)

theorem capInv_done : CaptureInv (capIn cfg (captureIn .done true 5 [4, 3, 5])) := by
  constructor <;> first | decide | (constructor <;> decide)

/-- PACE 3, one tick before the timeout is passed. -/
theorem capInv_paced : CaptureInv (capIn { cfg with pace := 3 } (captureIn .count true 3 [])) := by
  constructor <;> first | decide | (constructor <;> decide)

theorem repInv_idle : ReplayInv (repIn cfg (replayIn .idle 0 [10, 20, 5])) := by
  constructor <;> first | decide | (constructor <;> decide)

theorem repInv_full : ReplayInv (repIn { cfg with rbufDepth := 2 } (replayIn .idle 0 [1, 2])) := by
  constructor <;> first | decide | (constructor <;> decide)

theorem repInv_on : ReplayInv (repIn cfg (replayIn .on 0 [10, 20, 5])) := by
  constructor <;> first | decide | (constructor <;> decide)

/-- The last pair of four elements is still to come. -/
theorem repInv_off_more : ReplayInv (repIn cfg (replayIn .off 0 [1, 2, 3, 4])) := by
  constructor <;> first | decide | (constructor <;> decide)

theorem repInv_off_last : ReplayInv (repIn cfg (replayIn .off 0 [10, 20, 5])) := by
  constructor <;> first | decide | (constructor <;> decide)

theorem repInv_gap : ReplayInv (repIn cfg (replayIn .gap 2 [10, 20, 5])) := by
  constructor <;> first | decide | (constructor <;> decide)

theorem traceInv_reset : TraceInv (State.resetWith cfg) := ⟨by simp [State.resetWith], by decide⟩

theorem witness_DecodedWordEncodesBack : decode 0x2100FFFF = .ok (.repPush 0xFFFF) := by decide

theorem witness_AcceptedExactlyWhenWellFormed :
    wellFormedWord .env 0x13000000 = true ∧ wellFormedWord .host 0x13000000 = false := by decide

theorem witness_StepPerformsTheDeliveredWord : ∃ (s : State) (ds : List Delivery),
    configOk s.cfg = true ∧ s.port.stream = .word .host 0x10000000 :: ds ∧ decode 0x10000000 = .ok .capArm ∧
      Instr.capArm.mayBeIssuedBy .host = true :=
  ⟨given (State.resetWith cfg) [.word .host 0x10000000, .word .env 0x12000001], [.word .env 0x12000001], by decide⟩

theorem witness_IllFormedWordsAreIgnored : ∃ (s : State) (ds : List Delivery),
    configOk s.cfg = true ∧ s.port.stream = .word .host 0x12000001 :: ds ∧ wellFormedWord .host 0x12000001 = false :=
  ⟨given (State.resetWith cfg) [.word .host 0x12000001], [], by decide⟩

theorem witness_IllFormedWordsAreIgnored_reserved :
    ∀ op ∈ [0x01, 0x0F, 0x17, 0x1F, 0x27, 0x2F, 0x31, 0xFF],
      ((BitVec.ofNat 32 (op * 2 ^ 24)).extractLsb' 24 8).toNat = op ∧
        (0x01 ≤ op ∧ op ≤ 0x0F ∨ 0x17 ≤ op ∧ op ≤ 0x1F ∨ 0x27 ≤ op ∧ op ≤ 0x2F ∨ 0x31 ≤ op) := by decide

theorem witness_RefusesExactlyBrokenConfigurations :
    ¬ Constraints { cfg with pace := 2, timeout := 65535 } ∧ Constraints { cfg with pace := 1, timeout := 65535 } := by
  simp only [← configOk_iff]
  decide

theorem witness_WaitingBlockKeepsEveryField :
    configOk State.reset.cfg = true ∧ State.reset.port.stream = [] := by decide

theorem witness_LineSampleDeliversTheLogicalLevel : ∀ high : Bool, ∃ (s : State) (ds : List Delivery),
    configOk s.cfg = true ∧ s.port.stream = .lineTick high :: ds :=
  fun high => ⟨given (State.resetWith cfg) [.lineTick high], [], by cases high <;> decide⟩

theorem witness_TableWordIsPerformedNext : configOk State.reset.cfg = true ∧
    decodeTableWord 32 0x2100FFFF = some (.repPush 0xFFFF) := by decide

/-- The same state serves ResetKeepsTheInterface. -/
theorem witness_ResetWritesTheResetTable : ∃ (s : State) (ds : List Delivery),
    configOk s.cfg = true ∧ s.port.stream = .reset :: ds ∧ s.cap.cstate = .done :=
  ⟨given (capIn cfg (captureIn .done true 5 [4, 3, 5])) [.reset, .captureTurn], [.captureTurn], by decide⟩

/-- The clauses of CapArmStartsACycle, CapCancelRequestsCancellation and CapFaultAbortsTheCycle. -/
theorem witness_capture_states : ∀ c : CState, (capIn cfg (captureIn c true 0 [])).cap.cstate = c := fun _ => rfl

theorem witness_CapTickChecksInOrder : ∃ s : State, s.cap.cstate = .wait ∧ s.cap.cancelReq = true :=
  ⟨capIn cfg { captureIn .wait true 0 [] with cancelReq := true }, by decide⟩

theorem witness_WaitEntersCountOnAsserted : ∃ s : State, s.cap.cstate = .wait ∧ s.cap.cancelReq = false :=
  ⟨capIn cfg (captureIn .wait true 0 []), by decide⟩

/-- One tick below the timeout after the tick. -/
theorem witness_SameLevelTickCountsAndTimesOut_below : ∃ s : State, configOk s.cfg = true ∧ CaptureInv s ∧ s.cap.cstate = .count ∧
    s.cap.cancelReq = false ∧ s.cap.count.toNat + s.cfg.pace < s.cfg.timeout :=
  ⟨capIn cfg (captureIn .count true 3 [4, 3]), by decide,
    by constructor <;> first | decide | (constructor <;> decide), by decide⟩

/-- The count reaches the timeout exactly, and the push takes the last entry. -/
theorem witness_SameLevelTickCountsAndTimesOut_room : ∃ s : State, configOk s.cfg = true ∧ CaptureInv s ∧ s.cap.cstate = .count ∧
    s.cap.cancelReq = false ∧ s.cfg.timeout = s.cap.count.toNat + s.cfg.pace ∧
      s.cap.clen.toNat + 1 = s.cfg.cbufDepth :=
  ⟨_, by decide, capInv_one_left, by decide⟩

theorem witness_SameLevelTickCountsAndTimesOut_full : ∃ s : State, configOk s.cfg = true ∧ CaptureInv s ∧ s.cap.cstate = .count ∧
    s.cap.cancelReq = false ∧ s.cfg.timeout = s.cap.count.toNat + s.cfg.pace ∧ s.cap.clen.toNat = s.cfg.cbufDepth :=
  ⟨_, by decide, capInv_full, by decide⟩

/-- With PACE above 1 the count passes the timeout. -/
theorem witness_SameLevelTickCountsAndTimesOut_passed : ∃ s : State, configOk s.cfg = true ∧ CaptureInv s ∧
    s.cap.cstate = .count ∧ s.cap.cancelReq = false ∧ s.cfg.timeout < s.cap.count.toNat + s.cfg.pace :=
  ⟨_, by decide, capInv_paced, by decide⟩

theorem witness_LevelChangePushesTheRun_room : ∃ s : State, configOk s.cfg = true ∧ CaptureInv s ∧
    s.cap.cstate = .count ∧ s.cap.cancelReq = false ∧ s.cap.clen.toNat + 1 = s.cfg.cbufDepth :=
  ⟨_, by decide, capInv_one_left, by decide⟩

theorem witness_LevelChangePushesTheRun_full : ∃ s : State, configOk s.cfg = true ∧ CaptureInv s ∧
    s.cap.cstate = .count ∧ s.cap.cancelReq = false ∧ s.cap.clen.toNat = s.cfg.cbufDepth :=
  ⟨_, by decide, capInv_full, by decide⟩

theorem witness_CaptureStatusWordFields : ∀ (c : CState) (r : AbortReason), ∃ s : State,
    s.cap.cstate = c ∧ s.cap.abortReason = r :=
  fun c r => ⟨capIn cfg { captureIn c true 0 [] with abortReason := r }, rfl, rfl⟩

/-- The last readable index. -/
theorem witness_CapRdsampleReturnsTheEntry : ∃ (s : State) (idx : BitVec 16) (e : Sample),
    idx.toNat + 1 = s.cap.clen.toNat ∧ Memory.read? s.cap.cbuf idx.toNat = some e :=
  ⟨capIn cfg (captureIn .done true 5 [4, 3, 5]), 2, 5, by decide⟩

/-- The clauses of RepClearEmptiesTheBuffer, RepFaultAbortsTheTrain and ReplayStatusWordFields. -/
theorem witness_replay_states : ∀ (r : RState) (l : LastResult), ∃ s : State, s.rep.rstate = r ∧ s.rep.lastResult = l :=
  fun r l => ⟨repIn cfg { replayIn r 0 [1, 2] with lastResult := l }, rfl, rfl⟩

theorem witness_RepPushAppends_busy : ∃ s : State, configOk s.cfg = true ∧ ReplayInv s ∧ s.rep.rstate ≠ .idle :=
  ⟨_, by decide, repInv_on, by decide⟩

theorem witness_RepPushAppends_full : ∃ s : State, configOk s.cfg = true ∧ ReplayInv s ∧ s.rep.rstate = .idle ∧
    s.rep.rlen.toNat = s.cfg.rbufDepth :=
  ⟨_, by decide, repInv_full, by decide⟩

/-- One entry is left. -/
theorem witness_RepPushAppends_room : ∃ s : State, configOk s.cfg = true ∧ ReplayInv s ∧ s.rep.rstate = .idle ∧
    s.rep.rlen.toNat + 1 = s.cfg.rbufDepth :=
  ⟨repIn { cfg with rbufDepth := 3 } (replayIn .idle 0 [1, 2]), by decide,
    by constructor <;> first | decide | (constructor <;> decide), by decide⟩

theorem witness_RepStartBeginsTheTrain_ignored : ∃ s u v : State, s.rep.rstate ≠ .idle ∧ u.rep.rlen = 0 ∧
    v.rep.pushOvf = true :=
  ⟨repIn cfg (replayIn .gap 0 [1]), State.resetWith cfg, repIn cfg { replayIn .idle 0 [1] with pushOvf := true },
    by decide⟩

theorem witness_RepStartBeginsTheTrain_pair : ∃ (s : State) (v : Sample), s.rep.rstate = .idle ∧
    s.rep.pushOvf = false ∧ s.rep.rlen.toNat = 2 ∧ Memory.read? s.rep.rbuf 0 = some v :=
  ⟨repIn cfg (replayIn .idle 0 [65535, 1]), 65535, by decide⟩

theorem witness_RepStartBeginsTheTrain_lone : ∃ s : State, s.rep.rstate = .idle ∧ s.rep.pushOvf = false ∧
    s.rep.rlen = 1 :=
  ⟨repIn cfg (replayIn .idle 0 [10]), by decide⟩

theorem witness_RepFireAdvancesTheSequencer_idle : ∃ s : State, configOk s.cfg = true ∧ ReplayInv s ∧
    s.rep.rstate = .idle :=
  ⟨_, by decide, repInv_idle, by decide⟩

theorem witness_RepFireAdvancesTheSequencer_on : ∃ (s : State) (v : Sample), configOk s.cfg = true ∧ ReplayInv s ∧
    s.rep.rstate = .on ∧ Memory.read? s.rep.rbuf (s.rep.ridx.toNat + 1) = some v :=
  ⟨_, 20, by decide, repInv_on, by decide⟩

/-- The shortest train with another pair. -/
theorem witness_RepFireAdvancesTheSequencer_more : ∃ (s : State) (v : Sample), configOk s.cfg = true ∧ ReplayInv s ∧
    s.rep.rstate = .off ∧ s.rep.ridx.toNat + 4 = s.rep.rlen.toNat ∧
      Memory.read? s.rep.rbuf (s.rep.ridx.toNat + 2) = some v :=
  ⟨_, 3, by decide, repInv_off_more, by decide⟩

/-- The longest train with no other pair. -/
theorem witness_RepFireAdvancesTheSequencer_last : ∃ s : State, configOk s.cfg = true ∧ ReplayInv s ∧
    s.rep.rstate = .off ∧ s.rep.rlen.toNat = s.rep.ridx.toNat + 3 :=
  ⟨_, by decide, repInv_off_last, by decide⟩

theorem witness_RepFireAdvancesTheSequencer_gap : ∃ s : State, configOk s.cfg = true ∧ ReplayInv s ∧
    s.rep.rstate = .gap :=
  ⟨_, by decide, repInv_gap, by decide⟩

/-- A tick that ends a cycle. -/
theorem witness_StepKeepsTheCaptureInvariant : ∃ s t : State, CaptureInv s ∧ step s = .next t ∧ t.cap.cstate = .done :=
  ⟨given (capIn cfg (captureIn .count true 4 [4, 3])) [.word .env 0x12000001], _,
    by constructor <;> first | decide | (constructor <;> decide), rfl, by decide⟩

/-- An expiry that moves to the next pair. -/
theorem witness_StepKeepsTheReplayInvariant : ∃ s t : State, ReplayInv s ∧ step s = .next t ∧ t.rep.ridx = 2 :=
  ⟨given (repIn cfg (replayIn .off 0 [1, 2, 3, 4])) [.word .env 0x23000000], _,
    by constructor <;> first | decide | (constructor <;> decide), rfl, by decide⟩

theorem witness_StepKeepsTheTraceInvariant : ∃ s t : State, TraceInv s ∧ step s = .next t ∧
    t.trace = [.carrierOn, .arm 260] :=
  ⟨given (repIn cfg (replayIn .idle 0 [10, 20])) [.word .host 0x22000000], _,
    ⟨by simp [given, repIn, State.resetWith], by decide⟩, rfl, by decide⟩

theorem witness_ResetStatesAreSound : configOk cfg = true := by decide

theorem witness_EveryReachableStateIsSound : ∃ (ds : List Delivery) (t : State), configOk cfg = true ∧
    Host.Core.run Sys2Proof.core 1 ((State.resetWith cfg).setStream ds) = .next t ∧ t.cap.cstate = .wait :=
  ⟨[.word .host 0x10000000], _, by decide, rfl, by decide⟩

/-- The last clause of ReadsHaveNoSideEffects, at the last readable index and at the first that is not. -/
theorem witness_ReadsHaveNoSideEffects : ∃ s : State,
    (2 : BitVec 16).toNat < s.cap.clen.toNat ∧ ¬ (3 : BitVec 16).toNat < s.cap.clen.toNat :=
  ⟨capIn cfg (captureIn .done true 5 [4, 3, 5]), by decide⟩

theorem witness_CaptureBufferIsAppendOnly : ∃ s t : State, CaptureInv s ∧ (∀ ds, s.port.stream ≠ .reset :: ds) ∧
    step s = .next t ∧ t.cap.clen.toNat = s.cap.clen.toNat + 1 :=
  ⟨given (capIn cfg (captureIn .count true 4 [4, 3])) [.word .env 0x12000000], _,
    by constructor <;> first | decide | (constructor <;> decide), by simp [given], rfl, by decide⟩

/-- A push that is ignored, and so is the clear. -/
theorem witness_ReplayedTrainNeverChanges : ∃ s t : State, s.rep.rstate ≠ .idle ∧
    (∀ ds, s.port.stream ≠ .reset :: ds) ∧ step s = .next t :=
  ⟨given (repIn cfg (replayIn .on 0 [10, 20])) [.word .host 0x20000000], _, by decide, by simp [given], rfl⟩

theorem witness_TraceIsOnlyAppendedTo : ∃ s t : State, (∀ ds, s.port.stream ≠ .reset :: ds) ∧ step s = .next t ∧
    t.trace.length = 1 :=
  ⟨given (State.resetWith cfg) [.word .host 0x30000001], _, by simp [given], rfl, by decide⟩

theorem witness_UnitsShareNoState : unitOf .capArm = 1 ∧ unitOf (.repPush 7) = 2 ∧ unitOf (.pwrSet true) = 3 ∧
    unitOf .nop = 0 := by decide

theorem witness_AbortsAreLeftOnlyByAFreshStart_capture : ∃ s t : State, exec .capArm s = .next t ∧
    s.cap.cstate = .aborted ∧ t.cap.cstate ≠ .aborted :=
  ⟨capIn cfg (captureIn .aborted true 0 [1]), _, rfl, by decide⟩

theorem witness_AbortsAreLeftOnlyByAFreshStart_replay : ∃ s t : State, exec .repStart s = .next t ∧
    s.rep.rstate = .idle ∧ t.rep.rstate ≠ .idle :=
  ⟨repIn cfg (replayIn .idle 2 [1, 2, 3]), _, rfl, by decide⟩

theorem witness_OrderOfSimultaneousEventsDecides : ∃ s : State, s.cap.cstate = .count :=
  ⟨capIn cfg (captureIn .count true 1 []), by decide⟩

/-- The step that enters DONE. -/
theorem witness_CompletedTrainShape : ∃ s t : State, CaptureInv s ∧ step s = .next t ∧ t.cap.cstate = .done ∧
    s.cap.cstate ≠ .done :=
  ⟨given (capIn cfg (captureIn .count true 4 [4, 3])) [.word .env 0x12000001], _,
    by constructor <;> first | decide | (constructor <;> decide), rfl, by decide⟩

/-- A step that stays in DONE. -/
theorem witness_CompletedTrainShape_stays : ∃ s t : State, CaptureInv s ∧ step s = .next t ∧ t.cap.cstate = .done ∧
    s.cap.cstate = .done :=
  ⟨_, _, capInv_done, rfl, by decide⟩

/-- A one-tick run that enters from WAIT. -/
theorem witness_RunLengthLaw_wait : ∃ s t : State, configOk s.cfg = true ∧ CaptureInv s ∧ BeginsRun s t true ∧
    t.cap.clen.toNat < s.cfg.cbufDepth :=
  ⟨_, _, by decide, capInv_wait, ⟨rfl, by decide, .inl (by decide)⟩, by decide⟩

/-- The longest run that does not time out: r = 5, four ticks after the one that begins it; its push takes the last
entry. -/
theorem witness_RunLengthLaw_change : ∃ s t : State, configOk s.cfg = true ∧ CaptureInv s ∧ BeginsRun s t false ∧
    (5 - 1) * s.cfg.pace + 1 = s.cfg.timeout ∧ t.cap.clen.toNat + 1 = s.cfg.cbufDepth :=
  ⟨capIn { cfg with cbufDepth := 4 } (captureIn .count true 4 [4, 3]), _, by decide,
    by constructor <;> first | decide | (constructor <;> decide), ⟨rfl, by decide, .inr (by decide)⟩, by decide⟩

/-- ceil(5 / 3) = 2: the boundary is passed, not met. -/
theorem witness_TimeoutBoundaryLaw : ∃ s t : State, configOk s.cfg = true ∧ CaptureInv s ∧ BeginsRun s t true ∧
    t.cap.clen.toNat < s.cfg.cbufDepth ∧ (s.cfg.timeout + s.cfg.pace - 1) / s.cfg.pace = 2 :=
  ⟨capIn { cfg with pace := 3 } (captureIn .wait true 0 []), _, by decide,
    by constructor <;> first | decide | (constructor <;> decide), ⟨rfl, by decide, .inl (by decide)⟩, by decide⟩

theorem witness_TimeoutBoundaryLaw_unpaced : ∃ s t : State, configOk s.cfg = true ∧ CaptureInv s ∧
    BeginsRun s t true ∧ t.cap.clen.toNat < s.cfg.cbufDepth ∧ s.cfg.pace = 1 :=
  ⟨_, _, by decide, capInv_wait, ⟨rfl, by decide, .inl (by decide)⟩, by decide⟩

theorem witness_EmissionLaw : ∀ train ∈ [[10], [10, 20], ([10, 20, 5] : Train)], ∃ s : State, configOk s.cfg = true ∧
    s.rep.rstate = .idle ∧ s.rep.pushOvf = false ∧ s.rep.carrierEn = false ∧ train ≠ [] ∧
      s.rep.rlen.toNat = train.length ∧ ∀ i, i < train.length → Memory.read? s.rep.rbuf i = train[i]? := by
  intro train h
  refine ⟨repIn cfg (replayIn .idle 0 train), ?_⟩
  fin_cases h <;> decide

theorem witness_OddTailIsNeverEmitted : ∃ (s : State) (m : Memory), configOk s.cfg = true ∧ s.rep.rstate = .idle ∧
    s.rep.rlen.toNat % 2 = 1 ∧ m ≠ s.rep.rbuf ∧
      ∀ i, i ≠ s.rep.rlen.toNat - 1 → Memory.read? m i = Memory.read? s.rep.rbuf i := by
  refine ⟨repIn cfg (replayIn .idle 0 [10, 20, 5]), Memory.write (holding [10, 20, 5]) 2 7, by decide, by decide,
    by decide, by decide, fun i hi => ?_⟩
  have h2 : i ≠ 2 := hi
  rw [Memory.read?_write, if_neg h2]
  rfl

theorem witness_CompletedTrainsWaitOutTheGap_completes : ∃ s t : State, step s = .next t ∧ s.rep.rstate ≠ .idle ∧
    t.rep.rstate = .idle ∧ t.rep.lastResult = .completed :=
  ⟨given (repIn cfg (replayIn .gap 2 [10, 20, 5])) [.word .env 0x23000000], _, rfl, by decide⟩

theorem witness_CompletedTrainsWaitOutTheGap_enters : ∃ s t : State, step s = .next t ∧ s.rep.rstate ≠ .gap ∧
    t.rep.rstate = .gap :=
  ⟨given (repIn cfg (replayIn .off 0 [10, 20, 5])) [.word .env 0x23000000], _, rfl, by decide⟩

/-- The round trip of a train, and of a text with lower-case digits. -/
theorem witness_CodecRoundTrip : 1 ≤ ([0x1234] : Train).length ∧ decodeText (text "34aF".toList) = .ok [0xAF34] ∧
    (∀ c ∈ text "34AF".toList, upperHex c = true) ∧ decodeText (text "34AF".toList) = .ok [0xAF34] := by decide

theorem witness_DecodeAcceptsExactlyHexGroups :
    (text "840".toList).length % 4 ≠ 0 ∧
    (text "09af".toList ≠ [] ∧ (text "09af".toList).length % 4 = 0 ∧ ∀ c ∈ text "09af".toList, isHexChar c = true) ∧
    ((text "34g2".toList).length % 4 = 0 ∧ ∃ c ∈ text "34g2".toList, isHexChar c = false) := by decide

theorem witness_TimeUnitsScaleLinearly : configOk { cfg with tickUnits := 65536 } = true ∧
    4294901760 ∈ toTimeUnits { cfg with tickUnits := 65536 } [65535] := by decide

theorem witness_StripRemovesSurroundingBlanks : (∀ c ∈ text " \t".toList, isBlank c = true) ∧
    (∀ c ∈ ([0x0D, 0x0A] : Text), isBlank c = true) ∧ (∀ c ∈ (text "0 A".toList).head?, isBlank c = false) ∧
      (∀ c ∈ (text "0 A".toList).getLast?, isBlank c = false) := by decide

theorem witness_LinesEndAtLineFeed : lf ∉ text "0A00".toList := by decide

/-- A state whose replay session is about to take a line. -/
def takingLine (k : Config) (l : Text) : State :=
  ((given (State.resetWith k) [.replayTurn]).setReplaySession .nextLine).setInput (l ++ [lf])

theorem witness_BadLinesAreSkipped_blank : ∃ (l : Text) (s : State), configOk s.cfg = true ∧
    s.port.stream = [.replayTurn] ∧ s.port.replaySession = .nextLine ∧ lf ∉ l ∧ s.port.input = l ++ [lf] ∧
      strip l = [] :=
  ⟨text "  ".toList, takingLine cfg (text "  ".toList), by decide⟩

theorem witness_BadLinesAreSkipped_error : ∃ (l : Text) (s : State), configOk s.cfg = true ∧
    s.port.stream = [.replayTurn] ∧ s.port.replaySession = .nextLine ∧ lf ∉ l ∧ s.port.input = l ++ [lf] ∧
      strip l ≠ [] ∧ decodeText (strip l) = .error .invalidHexDigit :=
  ⟨text "0A00ZZ00".toList, takingLine cfg (text "0A00ZZ00".toList), by decide⟩

/-- One sample more than fits. -/
theorem witness_BadLinesAreSkipped_long : ∃ (l : Text) (s : State) (train : Train), configOk s.cfg = true ∧
    s.port.stream = [.replayTurn] ∧ s.port.replaySession = .nextLine ∧ lf ∉ l ∧ s.port.input = l ++ [lf] ∧
      decodeText (strip l) = .ok train ∧ train.length = s.cfg.rbufDepth + 1 :=
  ⟨text "0A0014000500".toList, takingLine { cfg with rbufDepth := 2 } (text "0A0014000500".toList), [10, 20, 5],
    by decide⟩

/-- Exactly what fits. -/
theorem witness_BadLinesAreSkipped_fits : ∃ (l : Text) (s : State) (train : Train), configOk s.cfg = true ∧
    s.port.stream = [.replayTurn] ∧ s.port.replaySession = .nextLine ∧ lf ∉ l ∧ s.port.input = l ++ [lf] ∧
      decodeText (strip l) = .ok train ∧ train.length = s.cfg.rbufDepth :=
  ⟨text "0A0014000500".toList, takingLine { cfg with rbufDepth := 3 } (text "0A0014000500".toList), [10, 20, 5],
    by decide⟩

/-- The last line, with no LF. -/
theorem witness_BadLinesAreSkipped_last : ∃ (l : Text) (s : State), configOk s.cfg = true ∧
    s.port.stream = [.replayTurn] ∧ s.port.replaySession = .nextLine ∧ lf ∉ l ∧ l ≠ [] ∧ s.port.input = l ∧
      strip l ≠ [] ∧ decodeText (strip l) = .error .malformedGroupLength :=
  ⟨text "0A001".toList, (takingLine cfg []).setInput (text "0A001".toList), by decide⟩

/-- The end of the input. -/
theorem witness_BadLinesAreSkipped_end : ∃ s : State, configOk s.cfg = true ∧ s.port.stream = [.replayTurn] ∧
    s.port.replaySession = .nextLine ∧ s.port.input = [] :=
  ⟨(takingLine cfg []).setInput [], by decide⟩

theorem witness_ReplaySessionWaitsForIdle : ∀ r : RState, ∃ s : State, configOk s.cfg = true ∧
    s.port.stream = [.replayTurn] ∧ s.port.replaySession = .awaitIdle [10, 20] ∧ s.rep.rstate = r :=
  fun r => ⟨(given (repIn cfg (replayIn r 0 [1, 2])) [.replayTurn]).setReplaySession (.awaitIdle [10, 20]),
    by cases r <;> decide⟩

/-- The train that ended was aborted. -/
theorem witness_ReplaySessionWaitsForIdle_end : ∃ s : State, configOk s.cfg = true ∧
    s.port.stream = [.replayTurn] ∧ s.port.replaySession = .awaitEnd ∧ s.rep.rstate = .idle ∧
      s.rep.lastResult = .aborted :=
  ⟨(given (repIn cfg { replayIn .idle 0 [1, 2] with lastResult := .aborted }) [.replayTurn]).setReplaySession .awaitEnd,
    by decide⟩

theorem witness_ReplaySessionLoadsAndStarts : ∃ (s : State) (train : Train), configOk s.cfg = true ∧
    s.rep.rstate = .idle ∧ train ≠ [] ∧ train.length = s.cfg.rbufDepth ∧ s.port.replaySession = .clear train ∧
      s.port.stream = List.replicate (train.length + 2) .replayTurn :=
  ⟨(given (repIn { cfg with rbufDepth := 2 } (replayIn .idle 0 [7])) (List.replicate 4 .replayTurn)).setReplaySession
    (.clear [10, 20]), [10, 20], by decide⟩

theorem witness_CaptureSessionFollowsTheStatus_loop : ∀ b : Bool, ∃ s : State, configOk s.cfg = true ∧
    s.port.stream = [.captureTurn] ∧ s.port.captureSession = .loop ∧ s.port.stopAsked = b :=
  fun b => ⟨((given (State.resetWith cfg) [.captureTurn]).setCaptureSession .loop).setStopAsked b,
    by cases b <;> decide⟩

theorem witness_CaptureSessionFollowsTheStatus_poll : ∀ (c : CState) (r : AbortReason), ∃ s : State,
    configOk s.cfg = true ∧ s.port.stream = [.captureTurn] ∧ s.port.captureSession = .poll ∧ s.cap.cstate = c ∧
      s.cap.abortReason = r :=
  fun c r => ⟨(given (capIn cfg { captureIn c true 0 [] with abortReason := r }) [.captureTurn]).setCaptureSession .poll,
    by cases c <;> cases r <;> decide⟩

theorem witness_CaptureSessionWritesTheTrain : ∃ s : State, configOk s.cfg = true ∧ CaptureInv s ∧
    s.cap.cstate = .done ∧ s.port.captureSession = .readLen ∧
      s.port.stream = List.replicate (s.cap.clen.toNat + 1) .captureTurn :=
  ⟨(given (capIn cfg (captureIn .done true 5 [4, 3, 5])) (List.replicate 4 .captureTurn)).setCaptureSession .readLen,
    by decide, by constructor <;> first | decide | (constructor <;> decide), by decide⟩

/-- Both ends of the duty range. -/
theorem witness_CarrierWaveformHasTheConfiguredDuty : configOk { cfg with dutyOnUnits := 0 } = true ∧
    configOk { cfg with dutyOnUnits := 26 } = true := by decide

end Sys2Proof.Tests
end

section
/-! PROOF. The step by what is delivered, and the two statements of 00_scope.md about it. -/

namespace Sys2Proof.Machine

/-! ## The step by the configuration and the next delivery -/

theorem step_eq_refused {s : State} (h : ¬ Constraints s.cfg) : step s = .refused .configurationOutsideConstraints := by
  have hc : ¬ configOk s.cfg = true := fun hok => h ((configOk_iff s.cfg).1 hok)
  simp [step, hc]

theorem step_eq_self {s : State} (hc : configOk s.cfg = true) (hs : s.port.stream = []) : step s = .next s := by
  simp [step, hc, deliverNext, hs]

theorem step_eq_deliver {s : State} {d : Delivery} {ds : List Delivery} (hc : configOk s.cfg = true)
    (hs : s.port.stream = d :: ds) : step s = deliver d (s.setStream ds) := by
  simp [step, hc, deliverNext, hs]

/-- A well-formed word is performed (30_encoding.md R73). -/
theorem performWord_eq_exec {a : Agent} {w : OpWord} {i : Instr} (hd : decode w = .ok i)
    (ha : i.mayBeIssuedBy a = true) (s : State) : performWord a w s = exec i s := by
  simp [performWord, hd, ha]

/-! ## Totality, and the configuration -/

/-- No delivery is refused or faults under a configuration that meets the constraints (60_exceptions.md R240). -/
theorem step_next {s : State} (hc : configOk s.cfg = true) : ∃ t, step s = .next t := by
  cases hs : s.port.stream with
  | nil => exact ⟨s, step_eq_self hc hs⟩
  | cons d ds =>
    obtain ⟨t, ht⟩ := deliver_next d (s.setStream ds)
    exact ⟨t, (step_eq_deliver hc hs).trans ht⟩

theorem BlockChange.cfg {s t : State} (h : BlockChange s t) : t.cfg = s.cfg := by
  cases h with
  | kept hk => exact hk.cfg
  | performed i u v hu hi ht =>
    obtain ⟨_, hp⟩ := exec_performed hi
    calc t.cfg = v.cfg := ht.cfg
      _ = u.cfg := hp.cfg
      _ = s.cfg := hu.cfg

/-- No step changes the configuration (10_state.md R20), the reset event included. -/
theorem step_cfg {s t : State} (h : step s = .next t) : t.cfg = s.cfg := by
  obtain ⟨-, ⟨-, hreset⟩ | ⟨-, hchange⟩⟩ := step_block h
  · exact hreset.cfg
  · exact hchange.cfg

/-! ## The statements -/

/-- Settles O8: the check of `step` is the table of constraints, every delivery completes, and none writes the
configuration. -/
theorem refusesExactlyBrokenConfigurations : Obligations.RefusesExactlyBrokenConfigurations := by
  refine fun s => ⟨step_eq_refused, fun hc => ?_⟩
  obtain ⟨t, ht⟩ := step_next ((configOk_iff s.cfg).2 hc)
  exact ⟨t, ht, step_cfg ht⟩

/-- Settles O5: the step delivers the word, and a well-formed word is performed. -/
theorem stepPerformsTheDeliveredWord : Obligations.StepPerformsTheDeliveredWord := by
  intro s a w ds i hc hs hd ha
  calc step s = deliver (.word a w) (s.setStream ds) := step_eq_deliver hc hs
    _ = exec i (s.setStream ds) := performWord_eq_exec hd ha _

end Sys2Proof.Machine
end

section
/-! PROOF. What the reset event writes, and how a predicate of the block is carried over a step and over a run. -/

namespace Sys2Proof.Machine

/-! ## The reset event (70_reset_and_hazards.md R270) -/

theorem atReset_resetBlock (s : State) : AtReset s.resetBlock := by constructor <;> rfl

theorem atReset_resetWith (c : Config) : AtReset (State.resetWith c) := by constructor <;> rfl

/-- Settles O11: the delivered reset event is `resetBlock`, and the state right after reset is the table itself. -/
theorem resetWritesTheResetTable : Obligations.ResetWritesTheResetTable := by
  refine ⟨fun s ds hc hs => ?_, fun c => ⟨atReset_resetWith c, rfl⟩, atReset_resetWith Config.nominal⟩
  exact ⟨(s.setStream ds).resetBlock, step_eq_deliver hc hs, atReset_resetBlock _, rfl⟩

/-! ## Over a step, over a run -/

/-- A predicate of the block that the reset event and every operation keep is kept by every step. -/
theorem step_keeps {P : State → Prop} (hsame : ∀ {s t : State}, P s → SameBlock s t → P t)
    (hreset : ∀ {s : State}, P s → P s.resetBlock)
    (hexec : ∀ {i : Instr} {s t : State}, configOk s.cfg = true → exec i s = .next t → P s → P t)
    {s t : State} (hs : P s) (h : step s = .next t) : P t := by
  obtain ⟨hc, ⟨-, hr⟩ | ⟨-, hk | ⟨i, u, v, hu, hi, hv⟩⟩⟩ := step_block h
  · exact hsame (hreset hs) hr
  · exact hsame hs hk
  · exact hsame (hexec (hu.cfg.symm ▸ hc) hi (hsame hs hu)) hv

/-- A run of one step more is a step and the rest of the run. -/
theorem run_succ {M : Host.Core} {n : Nat} {s t : M.State} (h : M.run (n + 1) s = .next t) :
    ∃ u, M.step s = .next u ∧ M.run n u = .next t := by
  unfold Host.Core.run at h
  split at h
  · exact ⟨_, ‹_›, h⟩
  · cases h
  · cases h

/-- What every step keeps, every run keeps. -/
theorem run_keeps {M : Host.Core} {P : M.State → Prop}
    (hstep : ∀ {s t : M.State}, P s → M.step s = .next t → P t) {n : Nat} :
    ∀ {s t : M.State}, P s → M.run n s = .next t → P t := by
  induction n with
  | zero =>
    intro s t hs h
    cases h
    exact hs
  | succ n ih =>
    intro s t hs h
    obtain ⟨u, hu, hrun⟩ := run_succ h
    exact ih (hstep hs hu) hrun

end Sys2Proof.Machine
end

section
/-! PROOF. What one operation can do to each unit, said once, and the trace as a list that only grows. -/

namespace Sys2Proof.Machine

@[simp] theorem fireReplay_cap (s : State) : (fireReplay s).cap = s.cap := by
  unfold fireReplay
  split
  · rfl
  · rfl
  · simp only
    split <;> rfl
  · rfl

@[simp] theorem replayAbort_cap (s : State) : (replayAbort s).cap = s.cap := by
  unfold replayAbort quietCarrier
  split <;> rfl

/-- What an operation can do to the capture unit (41_capture.md R130 to R138). -/
inductive CaptureMove (cfg : Config) (c : Capture) : Capture → Prop where
  | kept : CaptureMove cfg c c
  | armed (hfree : c.active = false) : CaptureMove cfg c { c with
      cstate := .wait, level := true, count := 0, clen := 0, cancelReq := false, abortReason := .none }
  | cancelAsked (hactive : c.active = true) : CaptureMove cfg c { c with cancelReq := true }
  | ticked (lvl : Bool) : CaptureMove cfg c (tickCapture cfg lvl c)
  | faulted (hactive : c.active = true) : CaptureMove cfg c (capAbort .periph c)

/-- What an operation can do to the replay unit, with the events it appends to the trace (42_replay.md R170 to R174,
43_system_and_text.md R211). -/
inductive ReplayMove (s : State) : Replay → List TraceEvent → Prop where
  | kept : ReplayMove s s.rep []
  | powered (v : Bool) : ReplayMove s s.rep [.power v]
  | cleared (hidle : s.rep.rstate = .idle) : ReplayMove s { s.rep with rlen := 0, pushOvf := false } []
  | overflowed (hidle : s.rep.rstate = .idle) (hfull : s.rep.rlen.toNat = s.cfg.rbufDepth) :
      ReplayMove s { s.rep with pushOvf := true } []
  | pushed (val : Sample) (hidle : s.rep.rstate = .idle) (hroom : s.rep.rlen.toNat ≠ s.cfg.rbufDepth) :
      ReplayMove s { s.rep with
        rbuf := Memory.write s.rep.rbuf s.rep.rlen.toNat val, rlen := s.rep.rlen + 1 } []
  | pairStarted (hidle : s.rep.rstate = .idle) (hovf : s.rep.pushOvf = false) (hpair : 2 ≤ s.rep.rlen.toNat) :
      ReplayMove s { s.rep with ridx := 0, carrierEn := true, rstate := .on }
        [.carrierOn, .arm (duration s.cfg (replaySample s 0))]
  | gapStarted (hidle : s.rep.rstate = .idle) (hovf : s.rep.pushOvf = false) (hlone : s.rep.rlen = 1) :
      ReplayMove s { s.rep with ridx := 0, rstate := .gap } [.arm s.cfg.gapUnits]
  | markEnded (hon : s.rep.rstate = .on) :
      ReplayMove s { s.rep with carrierEn := false, rstate := .off }
        [.carrierOff, .arm (duration s.cfg (replaySample s (s.rep.ridx.toNat + 1)))]
  | nextPair (hoff : s.rep.rstate = .off) (hmore : (s.rep.ridx + 2).toNat + 1 < s.rep.rlen.toNat) :
      ReplayMove s { s.rep with ridx := s.rep.ridx + 2, carrierEn := true, rstate := .on }
        [.carrierOn, .arm (duration s.cfg (replaySample s (s.rep.ridx + 2).toNat))]
  | lastPair (hoff : s.rep.rstate = .off) (hlast : ¬ (s.rep.ridx + 2).toNat + 1 < s.rep.rlen.toNat) :
      ReplayMove s { s.rep with ridx := s.rep.ridx + 2, rstate := .gap } [.arm s.cfg.gapUnits]
  | completed (hgap : s.rep.rstate = .gap) : ReplayMove s { s.rep with rstate := .idle, lastResult := .completed } []
  | aborted (hbusy : s.rep.rstate ≠ .idle) :
      ReplayMove s { s.rep with rstate := .idle, carrierEn := false, lastResult := .aborted }
        (if s.rep.carrierEn then [.carrierOff] else [])

theorem busy_iff (r : Replay) : r.busy = true ↔ r.rstate ≠ .idle := by simp [Replay.busy]

theorem rstate_idle_of_not_busy {r : Replay} (h : ¬ r.busy = true) : r.rstate = .idle :=
  not_not.1 (mt (busy_iff r).2 h)

theorem fireReplay_on {s : State} (h : s.rep.rstate = .on) :
    fireReplay s = ((s.setRep { s.rep with carrierEn := false, rstate := .off }).emit .carrierOff).emit
      (.arm (duration s.cfg (replaySample s (s.rep.ridx.toNat + 1)))) := by
  simp [fireReplay, h]

theorem fireReplay_move (s : State) :
    ∃ es, ReplayMove s (fireReplay s).rep es ∧ (fireReplay s).trace = s.trace ++ es := by
  cases hr : s.rep.rstate with
  | idle =>
    rw [fireReplay_idle hr]
    exact ⟨[], .kept, by simp⟩
  | on =>
    rw [fireReplay_on hr]
    exact ⟨_, .markEnded hr, by simp⟩
  | off =>
    by_cases hm : (s.rep.ridx + 2).toNat + 1 < s.rep.rlen.toNat
    · rw [fireReplay_off_more hr hm]
      exact ⟨_, .nextPair hr hm, by simp⟩
    · rw [fireReplay_off_last hr hm]
      exact ⟨_, .lastPair hr hm, by simp⟩
  | gap =>
    rw [fireReplay_gap hr]
    exact ⟨[], .completed hr, by simp⟩

/-- What an operation can do to the two units and to the trace. -/
theorem exec_moves {i : Instr} {s t : State} (h : exec i s = .next t) :
    CaptureMove s.cfg s.cap t.cap ∧ ∃ es, ReplayMove s t.rep es ∧ t.trace = s.trace ++ es := by
  cases i with
  | capArm =>
    simp only [exec, execCapArm] at h
    split at h <;> cases h
    · exact ⟨.kept, [], .kept, by simp⟩
    · exact ⟨.armed (Bool.eq_false_iff.2 ‹_›), [], .kept, by simp⟩
  | capCancel =>
    simp only [exec, execCapCancel] at h
    split at h <;> cases h
    · exact ⟨.cancelAsked ‹_›, [], .kept, by simp⟩
    · exact ⟨.kept, [], .kept, by simp⟩
  | capTick lvl =>
    cases h
    exact ⟨.ticked lvl, [], .kept, by simp⟩
  | capFault =>
    simp only [exec, execCapFault] at h
    split at h <;> cases h
    · exact ⟨.faulted ‹_›, [], .kept, by simp⟩
    · exact ⟨.kept, [], .kept, by simp⟩
  | capRdsample idx =>
    simp only [exec, execCapRdsample] at h
    split at h <;> cases h <;> exact ⟨.kept, [], .kept, by simp⟩
  | repClear =>
    simp only [exec, execRepClear] at h
    split at h <;> cases h
    · exact ⟨.kept, [], .kept, by simp⟩
    · exact ⟨.kept, [], .cleared (rstate_idle_of_not_busy ‹_›), by simp⟩
  | repPush val =>
    simp only [exec, execRepPush] at h
    split at h
    · cases h
      exact ⟨.kept, [], .kept, by simp⟩
    · rename_i hbusy
      have hidle := rstate_idle_of_not_busy hbusy
      split at h <;> cases h
      · exact ⟨.kept, [], .overflowed hidle ‹_›, by simp⟩
      · exact ⟨.kept, [], .pushed val hidle ‹_›, by simp⟩
  | repStart =>
    simp only [exec, execRepStart] at h
    split at h
    · cases h
      exact ⟨.kept, [], .kept, by simp⟩
    · rename_i hstart
      simp only [Bool.or_eq_true, not_or, beq_iff_eq, Bool.not_eq_true s.rep.pushOvf] at hstart
      obtain ⟨⟨hbusy, hsome⟩, hovf⟩ := hstart
      have hidle := rstate_idle_of_not_busy hbusy
      split at h <;> cases h
      · exact ⟨.kept, _, .pairStarted hidle hovf ‹_›, beginPair_trace _ s⟩
      · exact ⟨.kept, _, .gapStarted hidle hovf (by bv_omega), beginGap_trace _ s⟩
  | repFire =>
    cases h
    exact ⟨by simpa using CaptureMove.kept, fireReplay_move s⟩
  | repFault =>
    simp only [exec, execRepFault] at h
    split at h <;> cases h
    · rename_i hbusy
      have habort := ReplayMove.aborted ((busy_iff s.rep).1 hbusy)
      exact ⟨by simpa using CaptureMove.kept, _, by simpa using habort, replayAbort_trace s⟩
    · exact ⟨.kept, [], .kept, by simp⟩
  | pwrSet lvl =>
    cases h
    exact ⟨.kept, _, .powered lvl, rfl⟩
  | nop | capRdstatus | capRdlen | repRdstatus | repRdlen =>
    cases h
    exact ⟨.kept, [], .kept, by simp⟩

theorem exec_trace_grows {i : Instr} {s t : State} (h : exec i s = .next t) : s.trace <+: t.trace := by
  obtain ⟨-, es, -, ht⟩ := exec_moves h
  exact ⟨es, ht.symm⟩

/-- Settles O39: without the reset event a step keeps the trace or performs one operation, which appends. -/
theorem traceIsOnlyAppendedTo : Obligations.TraceIsOnlyAppendedTo := by
  intro s t hne h
  obtain ⟨-, ⟨⟨ds, hreset⟩, -⟩ | ⟨-, hk | ⟨i, u, v, hu, hi, hv⟩⟩⟩ := step_block h
  · exact absurd hreset (hne ds)
  · exact ⟨[], by rw [hk.trace, List.append_nil]⟩
  · exact hu.trace ▸ hv.trace ▸ exec_trace_grows hi

end Sys2Proof.Machine
end

section
/-! PROOF. The trace and replay invariants. -/

namespace Sys2Proof.Machine

/-! ## The trace (10_state.md R36, 60_exceptions.md R251) -/

theorem TraceInv.congr {s t : State} (h : TraceInv s) (htrace : t.trace = s.trace) (hrep : t.rep = s.rep) :
    TraceInv t where
  durations := htrace ▸ h.durations
  carrier := htrace ▸ hrep ▸ h.carrier

theorem traceInv_of_atReset {s : State} (h : AtReset s) : TraceInv s where
  durations := by simp [h.trace]
  carrier := by simp [h.trace, h.carrierEn, carrierAfter]

/-- The durations an operation arms are those of a sample or the gap. -/
theorem ReplayMove.arm_lt {s : State} {r : Replay} {es : List TraceEvent} (h : ReplayMove s r es)
    (hc : configOk s.cfg = true) {d : Nat} (hd : TraceEvent.arm d ∈ es) : d < 2 ^ 32 := by
  have hgap := ((configOk_iff s.cfg).1 hc).gapUnits
  cases h with
  | pairStarted | markEnded | nextPair =>
    obtain rfl : d = _ := by simpa using hd
    exact duration_lt hc _
  | gapStarted | lastPair =>
    obtain rfl : d = _ := by simpa using hd
    exact hgap
  | aborted => split at hd <;> simp at hd
  | kept | powered | cleared | overflowed | pushed | completed => simp at hd

/-- What the events of an operation leave the carrier at is the unit's own flag. -/
theorem ReplayMove.carrierAfter_append {s : State} {r : Replay} {es : List TraceEvent} (h : ReplayMove s r es)
    (hcarrier : carrierAfter s.trace = s.rep.carrierEn) : carrierAfter (s.trace ++ es) = r.carrierEn := by
  unfold carrierAfter at hcarrier ⊢
  rw [List.foldl_append, hcarrier]
  cases h with
  | aborted => cases hen : s.rep.carrierEn <;> rfl
  | _ => rfl

theorem exec_keeps_traceInv {i : Instr} {s t : State} (hs : TraceInv s) (hc : configOk s.cfg = true)
    (h : exec i s = .next t) : TraceInv t := by
  obtain ⟨-, es, hmove, htrace⟩ := exec_moves h
  constructor
  · intro d hd
    rw [htrace, List.mem_append] at hd
    exact hd.elim (hs.durations d) (hmove.arm_lt hc)
  · rw [htrace]
    exact hmove.carrierAfter_append hs.carrier

/-- Settles O33: the events of each operation are bounded and agree with the carrier flag it leaves. -/
theorem stepKeepsTheTraceInvariant : Obligations.StepKeepsTheTraceInvariant := by
  intro s t hs h
  exact step_keeps (fun hs hk => hs.congr hk.trace hk.rep) (fun _ => traceInv_of_atReset (atReset_resetBlock _))
    (fun hc hi hs => exec_keeps_traceInv hs hc hi) hs h

/-! ## The replay unit (10_state.md R40) -/

theorem ReplayInv.congr {s t : State} (h : ReplayInv s) (hcfg : t.cfg = s.cfg) (hrep : t.rep = s.rep) :
    ReplayInv t where
  buffer := hcfg ▸ hrep ▸ h.buffer
  lenFits := hcfg ▸ hrep ▸ h.lenFits
  ridxEven := hrep ▸ h.ridxEven
  pairLeft := hrep ▸ h.pairLeft
  carrier := hrep ▸ h.carrier
  loaded := hrep ▸ h.loaded
  overflowed := hcfg ▸ hrep ▸ h.overflowed

theorem replayInv_of_reset {s : State} (h : s.rep = Replay.reset) : ReplayInv s := by
  constructor <;> simp [h, Replay.reset, BufferInv.empty]

/-- An operation keeps the replay invariants: one case for each thing it can do to the unit. -/
theorem ReplayMove.keeps_inv {s : State} {r : Replay} {es : List TraceEvent} (h : ReplayMove s r es)
    (hc : configOk s.cfg = true) (hs : ReplayInv s) : ReplayInv (s.setRep r) := by
  have hdepth := ((configOk_iff s.cfg).1 hc).rbufDepth
  have hovf : s.rep.rstate ≠ .idle → s.rep.pushOvf = false := fun hbusy =>
    Bool.eq_false_iff.2 fun ho => hbusy (hs.overflowed ho).2
  cases h with
  | kept | powered => exact hs
  | cleared hidle =>
    exact { hs with
      buffer := hs.buffer.shorter (Nat.zero_le _)
      lenFits := Nat.zero_le _
      pairLeft := by simp [hidle]
      loaded := by simp [hidle]
      overflowed := by simp }
  | overflowed hidle hfull => exact { hs with overflowed := fun _ => ⟨hfull, hidle⟩ }
  | pushed val hidle hroom =>
    have hlt : s.rep.rlen.toNat < s.cfg.rbufDepth := lt_of_le_of_ne hs.lenFits hroom
    have hlen : (s.rep.rlen + 1).toNat = s.rep.rlen.toNat + 1 := toNat_succ hlt hdepth.2
    exact { hs with
      buffer := by simpa only [State.setRep_cfg, State.setRep_rep, hlen] using hs.buffer.append hlt val
      lenFits := by simpa only [State.setRep_cfg, State.setRep_rep, hlen] using Nat.succ_le_of_lt hlt
      pairLeft := by simp [hidle]
      loaded := by simp [hidle]
      overflowed := fun ho => absurd (hs.overflowed ho).1 hroom }
  | pairStarted _ hovf hpair =>
    exact { hs with
      ridxEven := rfl
      pairLeft := fun _ => hpair
      carrier := by simp
      loaded := fun _ => Nat.le_of_succ_le hpair
      overflowed := by simp [hovf] }
  | gapStarted hidle hovf hlone =>
    exact { hs with
      ridxEven := rfl
      pairLeft := by simp
      carrier := by simpa [hidle] using hs.carrier
      loaded := by simp [hlone]
      overflowed := by simp [hovf] }
  | markEnded hon =>
    exact { hs with
      pairLeft := fun _ => hs.pairLeft (.inl hon)
      carrier := by simp
      loaded := fun _ => hs.loaded (by simp [hon])
      overflowed := by simp [hovf, hon] }
  | nextPair hoff hmore =>
    exact { hs with
      ridxEven := by simpa using hs.ridxEven
      pairLeft := fun _ => hmore
      carrier := by simp
      loaded := fun _ => hs.loaded (by simp [hoff])
      overflowed := by simp [hovf, hoff] }
  | lastPair hoff _ =>
    exact { hs with
      ridxEven := by simpa using hs.ridxEven
      pairLeft := by simp
      carrier := by simpa [hoff] using hs.carrier
      loaded := fun _ => hs.loaded (by simp [hoff])
      overflowed := by simp [hovf, hoff] }
  | completed hgap =>
    exact { hs with
      pairLeft := by simp
      carrier := by simpa [hgap] using hs.carrier
      loaded := by simp
      overflowed := by simp [hovf, hgap] }
  | aborted _ =>
    exact { hs with
      pairLeft := by simp
      carrier := by simp
      loaded := by simp
      overflowed := fun ho => ⟨(hs.overflowed ho).1, rfl⟩ }

theorem exec_keeps_replayInv {i : Instr} {s t : State} (hs : ReplayInv s) (hc : configOk s.cfg = true)
    (h : exec i s = .next t) : ReplayInv t := by
  obtain ⟨-, es, hmove, -⟩ := exec_moves h
  obtain ⟨v, hp⟩ := exec_performed h
  exact (hmove.keeps_inv hc hs).congr hp.cfg rfl

/-- Settles O32: the reset event empties the unit, and each thing an operation can do to it keeps the invariants. -/
theorem stepKeepsTheReplayInvariant : Obligations.StepKeepsTheReplayInvariant := by
  intro s t hs h
  exact step_keeps (fun hs hk => hs.congr hk.cfg hk.rep) (fun _ => replayInv_of_reset rfl)
    (fun hc hi hs => exec_keeps_replayInv hs hc hi) hs h

end Sys2Proof.Machine
end

section
/-! PROOF. The capture invariants, and every reachable state. -/

namespace Sys2Proof.Machine

/-! ## The capture unit (10_state.md R39, 41_capture.md R142) -/

theorem CaptureInv.congr {s t : State} (h : CaptureInv s) (hcfg : t.cfg = s.cfg) (hcap : t.cap = s.cap) :
    CaptureInv t := by
  have hcaptured : t.captured = s.captured := by
    funext i
    simp only [State.captured, hcap]
  obtain ⟨_, _, _, _, _, _, _, _, _, _, _, _, _⟩ := h
  constructor <;> simpa only [hcfg, hcap, hcaptured]

/-- The capture invariants that hold whatever `cstate` is: R39 (a), (b) and (f), with the buffer's form. -/
structure TrainInv (cfg : Config) (c : Capture) : Prop where
  buffer : BufferInv c.cbuf cfg.cbufDepth c.clen.toNat
  lenFits : c.clen.toNat ≤ cfg.cbufDepth
  countMultiple : c.count.toNat % cfg.pace = 0
  countBound : c.count.toNat ≤ cfg.timeout + cfg.pace - 1
  multiples : ∀ i, i < c.clen.toNat → (memRead .cbuf c.cbuf i).toNat % cfg.pace = 0

theorem CaptureInv.train {s : State} (h : CaptureInv s) : TrainInv s.cfg s.cap := { h with }

/-- Out of an active cycle, and not in DONE, the common clauses are all there is. -/
theorem TrainInv.aborted {s : State} (h : TrainInv s.cfg s.cap) (hstate : s.cap.cstate = .aborted)
    (hcancel : s.cap.cancelReq = false) : CaptureInv s := { h with
  waitEmpty := by simp [hstate]
  countLevel := by simp [hstate]
  countBelow := by simp [hstate]
  countRuns := by simp [hstate]
  doneLast := by simp [hstate]
  doneRuns := by simp [hstate]
  doneLevel := by simp [hstate]
  cancelActive := by simp [hcancel] }

theorem TrainInv.counting {s : State} (h : TrainInv s.cfg s.cap) (hstate : s.cap.cstate = .count)
    (hlevel : s.cap.level = true ↔ s.cap.clen.toNat % 2 = 0) (hbelow : s.cap.count.toNat < s.cfg.timeout)
    (hruns : ∀ i, i < s.cap.clen.toNat → (s.captured i).toNat < s.cfg.timeout) : CaptureInv s := { h with
  waitEmpty := by simp [hstate]
  countLevel := fun _ => hlevel
  countBelow := fun _ => hbelow
  countRuns := fun _ => hruns
  doneLast := by simp [hstate]
  doneRuns := by simp [hstate]
  doneLevel := by simp [hstate]
  cancelActive := fun _ => .inr hstate }

theorem TrainInv.done {s : State} (h : TrainInv s.cfg s.cap) (hstate : s.cap.cstate = .done)
    (hcancel : s.cap.cancelReq = false) (hlast : 1 ≤ s.cap.clen.toNat ∧
      s.cfg.timeout ≤ (s.captured (s.cap.clen.toNat - 1)).toNat ∧
      (s.captured (s.cap.clen.toNat - 1)).toNat ≤ s.cfg.timeout + s.cfg.pace - 1)
    (hruns : ∀ i, i < s.cap.clen.toNat - 1 → (s.captured i).toNat < s.cfg.timeout)
    (hlevel : s.cap.level = true ↔ s.cap.clen.toNat % 2 = 1) : CaptureInv s := { h with
  waitEmpty := by simp [hstate]
  countLevel := by simp [hstate]
  countBelow := by simp [hstate]
  countRuns := by simp [hstate]
  doneLast := fun _ => hlast
  doneRuns := fun _ => hruns
  doneLevel := fun _ => hlevel
  cancelActive := by simp [hcancel] }

theorem captureInv_of_reset {s : State} (h : s.cap = Capture.reset) : CaptureInv s := by
  constructor <;> simp [h, Capture.reset, BufferInv.empty]

/-- CAP.ARM keeps the old entries, none of which counts (41_capture.md R130). -/
theorem captureInv_armed {s : State} (hs : CaptureInv s) : CaptureInv (s.setCap { s.cap with
    cstate := .wait, level := true, count := 0, clen := 0, cancelReq := false, abortReason := .none }) where
  buffer := hs.buffer.shorter (Nat.zero_le _)
  lenFits := Nat.zero_le _
  countMultiple := Nat.zero_mod _
  countBound := Nat.zero_le _
  waitEmpty := by simp
  countLevel := by simp
  countBelow := by simp
  countRuns := by simp
  doneLast := by simp
  doneRuns := by simp
  doneLevel := by simp
  multiples := by simp
  cancelActive := by simp

theorem active_iff (c : Capture) : c.active = true ↔ c.cstate = .wait ∨ c.cstate = .count := by
  simp [Capture.active]

/-! ## A push with room, and the abort -/

/-- The unit after a push with room (41_capture.md R137). -/
def Capture.pushed (c : Capture) (v : Sample) : Capture :=
  { c with cbuf := Memory.write c.cbuf c.clen.toNat v, clen := c.clen + 1 }

theorem pushSample_eq_pushed {depth : Nat} {c : Capture} (h : c.clen.toNat ≠ depth) (v : Sample)
    (k : Capture → Capture) : pushSample depth c v k = k (c.pushed v) := pushSample_room h v k

theorem memRead_pushed (c : Capture) (v : Sample) (i : Nat) : memRead .cbuf (c.pushed v).cbuf i =
    if i = c.clen.toNat then v else memRead .cbuf c.cbuf i := memRead_write _ _ _ _ _

theorem TrainInv.room {cfg : Config} {c : Capture} (h : TrainInv cfg c) (hroom : c.clen.toNat ≠ cfg.cbufDepth) :
    c.clen.toNat < cfg.cbufDepth := lt_of_le_of_ne h.lenFits hroom

section
variable {cfg : Config} {c : Capture} (hc : configOk cfg = true) (h : TrainInv cfg c)
  (hroom : c.clen.toNat ≠ cfg.cbufDepth)
include hc h hroom

theorem TrainInv.pushed_clen (v : Sample) : (c.pushed v).clen.toNat = c.clen.toNat + 1 :=
  toNat_succ (h.room hroom) ((configOk_iff cfg).1 hc).cbufDepth.2

/-- What holds of every entry and of the pushed sample holds of every entry after the push. -/
theorem TrainInv.pushed_entries {p : Sample → Prop} {v : Sample} (hv : p v)
    (hp : ∀ i, i < c.clen.toNat → p (memRead .cbuf c.cbuf i)) (i : Nat) (hi : i < (c.pushed v).clen.toNat) :
    p (memRead .cbuf (c.pushed v).cbuf i) := by
  rw [h.pushed_clen hc hroom] at hi
  rw [memRead_pushed]
  split
  · exact hv
  · exact hp i (by omega)

theorem TrainInv.pushed : TrainInv cfg (c.pushed c.count) where
  buffer := by
    rw [h.pushed_clen hc hroom]
    exact h.buffer.append (h.room hroom) c.count
  lenFits := by
    rw [h.pushed_clen hc hroom]
    exact h.room hroom
  countMultiple := h.countMultiple
  countBound := h.countBound
  multiples := h.pushed_entries hc hroom (p := fun v => v.toNat % cfg.pace = 0) h.countMultiple h.multiples
end

/-- An abort keeps what was captured (60_exceptions.md R245). -/
theorem TrainInv.abort {s : State} {c : Capture} (h : TrainInv s.cfg c) (r : AbortReason) :
    CaptureInv (s.setCap (capAbort r c)) :=
  TrainInv.aborted (s := s.setCap (capAbort r c)) { h with } rfl rfl

/-! ## A sampling tick -/

theorem captureInv_tickWait {s : State} (hs : CaptureInv s) (hc : configOk s.cfg = true)
    (hwait : s.cap.cstate = .wait) (lvl : Bool) : CaptureInv (s.setCap (tickWait lvl s.cap)) := by
  have htimeout := ((configOk_iff s.cfg).1 hc).timeout
  obtain ⟨hclen, -⟩ := hs.waitEmpty hwait
  unfold tickWait
  split
  · have htrain : TrainInv s.cfg { s.cap with cstate := .count, level := true, count := 0 } :=
      { hs.train with countMultiple := Nat.zero_mod _, countBound := Nat.zero_le _ }
    exact TrainInv.counting (s := s.setCap _) htrain rfl (by simp [hclen]) htimeout.1 (by simp [hclen])
  · exact hs

/-- A counting unit whose run may have reached the timeout (41_capture.md R136): it goes on counting, it is DONE with
the run as the last sample, or the buffer was full. -/
theorem captureInv_timeoutCheck {s : State} {c : Capture} (h : TrainInv s.cfg c) (hc : configOk s.cfg = true)
    (hstate : c.cstate = .count) (hcancel : c.cancelReq = false) (hlevel : c.level = true ↔ c.clen.toNat % 2 = 0)
    (hruns : ∀ i, i < c.clen.toNat → (memRead .cbuf c.cbuf i).toNat < s.cfg.timeout) :
    CaptureInv (s.setCap (timeoutCheck s.cfg c)) := by
  by_cases hreached : s.cfg.timeout ≤ c.count.toNat
  · rw [timeoutCheck_reached hreached]
    by_cases hfull : c.clen.toNat = s.cfg.cbufDepth
    · rw [pushSample_full hfull]
      exact h.abort .overflow
    · rw [pushSample_eq_pushed hfull]
      have hlen := h.pushed_clen hc hfull c.count
      refine TrainInv.done (s := s.setCap _) { h.pushed hc hfull with } rfl hcancel ?_ (fun i hi => ?_) ?_
      · simp [State.captured, hlen, memRead_pushed, hreached, h.countBound]
      · simp only [State.setCap_cap, hlen, Nat.add_sub_cancel] at hi
        simpa [State.captured, memRead_pushed, hi.ne] using hruns i hi
      · simp only [State.setCap_cap, hlen]
        exact hlevel.trans (by omega)
  · have hbelow := Nat.not_le.1 hreached
    rw [timeoutCheck_below hbelow]
    exact TrainInv.counting (s := s.setCap c) h hstate hlevel hbelow hruns

theorem captureInv_tickCount {s : State} (hs : CaptureInv s) (hc : configOk s.cfg = true)
    (hcount : s.cap.cstate = .count) (hcancel : s.cap.cancelReq = false) (lvl : Bool) :
    CaptureInv (s.setCap (tickCount s.cfg lvl s.cap)) := by
  have hbelow := hs.countBelow hcount
  have hlevel := hs.countLevel hcount
  have hruns := hs.countRuns hcount
  unfold tickCount
  split
  · have hadd := count_add_pace hc hbelow
    refine captureInv_timeoutCheck { hs.train with countMultiple := ?_, countBound := ?_ } hc hcount hcancel hlevel
      hruns
    · simp only [hadd, Nat.add_mod_right, hs.countMultiple]
    · simp only [hadd]
      omega
  · by_cases hfull : s.cap.clen.toNat = s.cfg.cbufDepth
    · rw [pushSample_full hfull]
      exact hs.train.abort .overflow
    · rw [pushSample_eq_pushed hfull]
      have hlen := hs.train.pushed_clen hc hfull s.cap.count
      refine captureInv_timeoutCheck { hs.train.pushed hc hfull with countMultiple := ?_, countBound := ?_ } hc hcount
        hcancel ?_ (hs.train.pushed_entries hc hfull (p := fun v => v.toNat < s.cfg.timeout) hbelow hruns)
      · exact Nat.zero_mod _
      · exact Nat.zero_le _
      · simp only [hlen, Bool.not_eq_true', ← Bool.not_eq_true]
        exact (not_congr hlevel).trans (by omega)

theorem captureInv_tickCapture {s : State} (hs : CaptureInv s) (hc : configOk s.cfg = true) (lvl : Bool) :
    CaptureInv (s.setCap (tickCapture s.cfg lvl s.cap)) := by
  cases hactive : s.cap.active with
  | false =>
    rw [tickCapture_ignored hactive]
    exact hs
  | true =>
    cases hcancel : s.cap.cancelReq with
    | true =>
      rw [tickCapture_cancelled hactive hcancel]
      exact hs.train.abort .cancelled
    | false =>
      rcases (active_iff s.cap).1 hactive with hwait | hcount
      · rw [tickCapture_wait hwait hcancel]
        exact captureInv_tickWait hs hc hwait lvl
      · rw [tickCapture_count hcount hcancel]
        exact captureInv_tickCount hs hc hcount hcancel lvl

/-- An operation keeps the capture invariants: one case for each thing it can do to the unit. -/
theorem CaptureMove.keeps_inv {s : State} {c : Capture} (h : CaptureMove s.cfg s.cap c) (hc : configOk s.cfg = true)
    (hs : CaptureInv s) : CaptureInv (s.setCap c) := by
  cases h with
  | kept => exact hs
  | armed _ => exact captureInv_armed hs
  | cancelAsked hactive => exact { hs with cancelActive := fun _ => (active_iff s.cap).1 hactive }
  | ticked lvl => exact captureInv_tickCapture hs hc lvl
  | faulted _ => exact hs.train.abort .periph

theorem exec_keeps_captureInv {i : Instr} {s t : State} (hs : CaptureInv s) (hc : configOk s.cfg = true)
    (h : exec i s = .next t) : CaptureInv t := by
  obtain ⟨v, hp⟩ := exec_performed h
  obtain ⟨hmove, -⟩ := exec_moves h
  exact (hmove.keeps_inv hc hs).congr hp.cfg rfl

/-- Settles O31: the reset event empties the unit, and each thing an operation can do to it keeps the invariants. -/
theorem stepKeepsTheCaptureInvariant : Obligations.StepKeepsTheCaptureInvariant := by
  intro s t hs h
  exact step_keeps (fun hs hk => hs.congr hk.cfg hk.cap) (fun _ => captureInv_of_reset rfl)
    (fun hc hi hs => exec_keeps_captureInv hs hc hi) hs h

/-! ## Every reachable state -/

theorem State.Inv.congr {s t : State} (h : s.Inv) (hk : SameBlock s t) : t.Inv where
  config := hk.cfg ▸ h.config
  capture := h.capture.congr hk.cfg hk.cap
  replay := h.replay.congr hk.cfg hk.rep
  trace := h.trace.congr hk.trace hk.rep

theorem State.resetWith_inv {c : Config} (hc : configOk c = true) : (State.resetWith c).Inv where
  config := hc
  capture := captureInv_of_reset rfl
  replay := replayInv_of_reset rfl
  trace := traceInv_of_atReset (atReset_resetWith c)

theorem step_keeps_inv {s t : State} (hs : s.Inv) (h : step s = .next t) : t.Inv where
  config := (step_cfg h).symm ▸ hs.config
  capture := stepKeepsTheCaptureInvariant s t hs.capture h
  replay := stepKeepsTheReplayInvariant s t hs.replay h
  trace := stepKeepsTheTraceInvariant s t hs.trace h

/-- Settles O35: the state right after reset is sound whatever stream it is given, and every step keeps soundness. -/
theorem everyReachableStateIsSound : Obligations.EveryReachableStateIsSound := by
  intro c ds n t hc hrun
  have hstart : ((State.resetWith c).setStream ds).Inv := (State.resetWith_inv hc).congr ⟨rfl, rfl, rfl, rfl, rfl⟩
  exact run_keeps (M := Sys2Proof.core) step_keeps_inv hstart hrun

end Sys2Proof.Machine
end

section
/-! PROOF. The buffers of 20_memory.md: reads without side effects, the append-only capture buffer, the train that never
changes while it is replayed, and the table word placed by `withFetchWord`. -/

namespace Sys2Proof.Machine

/-! ## A table word as the next delivery -/

theorem mayBeIssuedBy_agent (i : Instr) : i.mayBeIssuedBy i.agent = true := by
  cases i <;> rfl

theorem decode_of_decodeTableWord {nbits w : Nat} {i : Instr} (h : decodeTableWord nbits w = some i) :
    decode (BitVec.ofNat 32 (w % 2 ^ nbits)) = .ok i := by
  unfold decodeTableWord at h
  cases hd : decode (BitVec.ofNat 32 (w % 2 ^ nbits)) with
  | ok j =>
    rw [hd] at h
    cases h
    rfl
  | error e =>
    rw [hd] at h
    cases h

theorem withFetchWord_eq_setStream {nbits w : Nat} {i : Instr} (h : decodeTableWord nbits w = some i) (s : State) :
    s.withFetchWord nbits w = s.setStream (.word i.agent (BitVec.ofNat 32 (w % 2 ^ nbits)) :: s.port.stream) := by
  simp only [State.withFetchWord, decode_of_decodeTableWord h]

/-- Settles O6: the placed word is the next delivery, and its agent may issue it. -/
theorem tableWordIsPerformedNext : Obligations.TableWordIsPerformedNext := by
  intro s nbits w i hc h
  rw [withFetchWord_eq_setStream h]
  exact stepPerformsTheDeliveredWord _ _ _ s.port.stream i hc rfl (decode_of_decodeTableWord h) (mayBeIssuedBy_agent i)

/-! ## Reads (20_memory.md R56) -/

/-- CAP.RDSAMPLE below clen reads the entry (41_capture.md R141). -/
theorem execCapRdsample_below {s : State} {idx : BitVec 16} (h : idx.toNat < s.cap.clen.toNat) :
    execCapRdsample idx s = answer (memRead .cbuf s.cap.cbuf idx.toNat) s := by
  simp [execCapRdsample, sampleReadable, h]

/-- CAP.RDSAMPLE at or above clen draws a value (41_capture.md R141). -/
theorem execCapRdsample_above {s : State} {idx : BitVec 16} (h : ¬ idx.toNat < s.cap.clen.toNat) :
    execCapRdsample idx s = answer (Config.draw16 s.draws) s.drawn := by
  simp [execCapRdsample, sampleReadable, h]

/-- An operation that only answers, twice with one value. -/
theorem repeats_of_answer {i : Instr} {s : State} {v : Response} {p : Prop} (h : exec i s = answer v s)
    (hagain : exec i (s.respond v) = answer v (s.respond v)) :
    ∃ t u v w, exec i s = .next t ∧ exec i t = .next u ∧ SameBlock s t ∧ t.port = s.port.returned v ∧
      u.port = t.port.returned w ∧ (p → w = v) :=
  ⟨_, _, v, v, h, hagain, ⟨rfl, rfl, rfl, rfl, rfl⟩, rfl, rfl, fun _ => rfl⟩

/-- Settles O36: each read only answers, with a value of the block that answering does not change; a read above clen
draws, which is outside the block. -/
theorem readsHaveNoSideEffects : Obligations.ReadsHaveNoSideEffects := by
  rintro i s (rfl | rfl | ⟨idx, rfl⟩ | rfl | rfl)
  · exact repeats_of_answer rfl rfl
  · exact repeats_of_answer rfl rfl
  · by_cases hidx : idx.toNat < s.cap.clen.toNat
    · exact repeats_of_answer (execCapRdsample_below hidx) (execCapRdsample_below hidx)
    · exact ⟨_, _, _, _, execCapRdsample_above hidx, execCapRdsample_above hidx, ⟨rfl, rfl, rfl, rfl, rfl⟩, rfl, rfl,
        fun hbelow => absurd (hbelow idx rfl) hidx⟩
  · exact repeats_of_answer rfl rfl
  · exact repeats_of_answer rfl rfl

/-! ## The capture buffer (20_memory.md R57) -/

/-- What an operation can do to the buffer and its length: nothing, start again, or one push. -/
inductive BufferMove (cfg : Config) (c c' : Capture) : Prop where
  | kept (hbuf : c'.cbuf = c.cbuf) (hlen : c'.clen = c.clen)
  | rearmed (hbuf : c'.cbuf = c.cbuf) (hlen : c'.clen = 0) (hstate : c'.cstate = .wait)
  | pushed (v : Sample) (hroom : c.clen.toNat ≠ cfg.cbufDepth) (hbuf : c'.cbuf = (c.pushed v).cbuf)
      (hlen : c'.clen = (c.pushed v).clen)

/-- The timeout check pushes at most the run it ends. -/
theorem bufferMove_timeoutCheck (cfg : Config) (c : Capture) : BufferMove cfg c (timeoutCheck cfg c) := by
  by_cases hreached : cfg.timeout ≤ c.count.toNat
  · rw [timeoutCheck_reached hreached]
    by_cases hfull : c.clen.toNat = cfg.cbufDepth
    · rw [pushSample_full hfull]
      exact .kept rfl rfl
    · rw [pushSample_eq_pushed hfull]
      exact .pushed c.count hfull rfl rfl
  · rw [timeoutCheck_below (Nat.not_le.1 hreached)]
    exact .kept rfl rfl

/-- A counting tick pushes at most once: a level change restarts the count, so no timeout follows its push. -/
theorem bufferMove_tickCount {cfg : Config} (hc : configOk cfg = true) (lvl : Bool) (c : Capture) :
    BufferMove cfg c (tickCount cfg lvl c) := by
  unfold tickCount
  split
  · cases bufferMove_timeoutCheck cfg { c with count := BitVec.ofNat 16 (c.count.toNat + cfg.pace) } with
    | kept hbuf hlen => exact .kept hbuf hlen
    | rearmed hbuf hlen hstate => exact .rearmed hbuf hlen hstate
    | pushed v hroom hbuf hlen => exact .pushed v hroom hbuf hlen
  · by_cases hfull : c.clen.toNat = cfg.cbufDepth
    · rw [pushSample_full hfull]
      exact .kept rfl rfl
    · rw [pushSample_eq_pushed hfull, timeoutCheck_restart hc rfl]
      exact .pushed c.count hfull rfl rfl

theorem bufferMove_tickCapture {cfg : Config} (hc : configOk cfg = true) (lvl : Bool) (c : Capture) :
    BufferMove cfg c (tickCapture cfg lvl c) := by
  cases hactive : c.active with
  | false =>
    rw [tickCapture_ignored hactive]
    exact .kept rfl rfl
  | true =>
    cases hcancel : c.cancelReq with
    | true =>
      rw [tickCapture_cancelled hactive hcancel]
      exact .kept rfl rfl
    | false =>
      rcases (active_iff c).1 hactive with hwait | hcount
      · rw [tickCapture_wait hwait hcancel]
        unfold tickWait
        split <;> exact .kept rfl rfl
      · rw [tickCapture_count hcount hcancel]
        exact bufferMove_tickCount hc lvl c

theorem CaptureMove.bufferMove {cfg : Config} {c c' : Capture} (h : CaptureMove cfg c c') (hc : configOk cfg = true) :
    BufferMove cfg c c' := by
  cases h with
  | armed => exact .rearmed rfl rfl rfl
  | ticked lvl => exact bufferMove_tickCapture hc lvl c
  | kept | cancelAsked | faulted => exact .kept rfl rfl

theorem BlockChange.bufferMove {s t : State} (h : BlockChange s t) (hc : configOk s.cfg = true) :
    BufferMove s.cfg s.cap t.cap := by
  cases h with
  | kept hk => exact .kept (by rw [hk.cap]) (by rw [hk.cap])
  | performed i u v hu hi ht =>
    obtain ⟨hmove, -⟩ := exec_moves hi
    rw [hu.cfg, hu.cap, ← ht.cap] at hmove
    exact hmove.bufferMove hc

/-- Settles O37: an operation keeps the buffer, starts it again or pushes once, and a push with room does not wrap. -/
theorem captureBufferIsAppendOnly : Obligations.CaptureBufferIsAppendOnly := by
  intro s t hs hne h
  obtain ⟨hc, ⟨⟨ds, hreset⟩, -⟩ | ⟨-, hchange⟩⟩ := step_block h
  · exact absurd hreset (hne ds)
  · cases hchange.bufferMove hc with
    | kept hbuf hlen => exact .inl ⟨hbuf, .inl hlen⟩
    | rearmed hbuf hlen hstate => exact .inl ⟨hbuf, .inr ⟨hlen, hstate⟩⟩
    | pushed v hroom hbuf hlen =>
      refine .inr ⟨?_, v, fun i => ?_⟩
      · rw [hlen]
        exact hs.train.pushed_clen hc hroom v
      · rw [hbuf]
        exact Memory.read?_write _ _ _ _

/-! ## The train being replayed (20_memory.md R58) -/

/-- Only the operations of an idle unit load its buffer. -/
theorem ReplayMove.train_of_busy {s : State} {r : Replay} {es : List TraceEvent} (h : ReplayMove s r es)
    (hbusy : s.rep.rstate ≠ .idle) : r.rbuf = s.rep.rbuf ∧ r.rlen = s.rep.rlen := by
  cases h with
  | cleared hidle => exact absurd hidle hbusy
  | pushed _ hidle => exact absurd hidle hbusy
  | _ => exact ⟨rfl, rfl⟩

/-- Settles O38: without the reset event a step keeps the unit or performs one operation, which finds it busy. -/
theorem replayedTrainNeverChanges : Obligations.ReplayedTrainNeverChanges := by
  intro s t hbusy hne h
  obtain ⟨-, ⟨⟨ds, hreset⟩, -⟩ | ⟨-, hk | ⟨i, u, v, hu, hi, hv⟩⟩⟩ := step_block h
  · exact absurd hreset (hne ds)
  · rw [hk.rep]
    exact ⟨rfl, rfl⟩
  · obtain ⟨-, _, hmove, -⟩ := exec_moves hi
    rw [hv.rep, ← hu.rep]
    exact hmove.train_of_busy (hu.rep.symm ▸ hbusy)

end Sys2Proof.Machine
end

section
/-! PROOF. The units share no state (20_memory.md R61): what an operation does to its unit is determined by that unit. -/

namespace Sys2Proof.Machine

/-! ## The operations of each unit -/

theorem unitOf_pwrSet (lvl : Bool) : unitOf (.pwrSet lvl) = 3 := by simp [unitOf, opcode]

theorem instr_by_unit (i : Instr) : i = .nop ∨ unitOf i = 1 ∨ unitOf i = 2 ∨ ∃ lvl, i = .pwrSet lvl := by
  cases i with
  | nop => exact .inl rfl
  | capArm | capCancel | capTick _ | capFault | capRdstatus | capRdlen | capRdsample _ =>
    exact .inr (.inl (by simp [unitOf, opcode]))
  | repClear | repPush _ | repStart | repFire | repFault | repRdstatus | repRdlen =>
    exact .inr (.inr (.inl (by simp [unitOf, opcode])))
  | pwrSet lvl => exact .inr (.inr (.inr ⟨lvl, rfl⟩))

/-- A capture operation's effect on its unit is determined by the unit; its response also by the power bit, which is in
the status word (30_encoding.md R77), and by the count of draws (log 6). -/
theorem exec_of_capture_unit {i : Instr} (hunit : unitOf i = 1) (cfg : Config) (c : Capture) :
    ∃ (c' : Capture) (v : Bool → Nat → Response) (n : Nat → Nat), ∀ s : State, s.cfg = cfg → s.cap = c →
      exec i s = .next { s with cap := c', port := s.port.returned (v s.pwr s.draws), draws := n s.draws } := by
  cases i with
  | capArm =>
    by_cases hactive : c.active = true
    · exact ⟨c, fun _ _ => 0, id, by rintro s rfl rfl; exact if_pos hactive⟩
    · exact ⟨{ c with
        cstate := .wait, level := true, count := 0, clen := 0, cancelReq := false, abortReason := .none },
        fun _ _ => 0, id, by rintro s rfl rfl; exact if_neg hactive⟩
  | capCancel =>
    by_cases hactive : c.active = true
    · exact ⟨{ c with cancelReq := true }, fun _ _ => 0, id, by rintro s rfl rfl; exact if_pos hactive⟩
    · exact ⟨c, fun _ _ => 0, id, by rintro s rfl rfl; exact if_neg hactive⟩
  | capTick lvl => exact ⟨tickCapture cfg lvl c, fun _ _ => 0, id, by rintro s rfl rfl; rfl⟩
  | capFault =>
    by_cases hactive : c.active = true
    · exact ⟨capAbort .periph c, fun _ _ => 0, id, by rintro s rfl rfl; exact if_pos hactive⟩
    · exact ⟨c, fun _ _ => 0, id, by rintro s rfl rfl; exact if_neg hactive⟩
  | capRdstatus =>
    exact ⟨c, fun p _ => capStatus ((State.reset.setCap c).setPwr p), id, by rintro s rfl rfl; rfl⟩
  | capRdlen => exact ⟨c, fun _ _ => c.clen, id, by rintro s rfl rfl; rfl⟩
  | capRdsample idx =>
    by_cases hidx : idx.toNat < c.clen.toNat
    · exact ⟨c, fun _ _ => memRead .cbuf c.cbuf idx.toNat, id, by rintro s rfl rfl; exact execCapRdsample_below hidx⟩
    · exact ⟨c, fun _ d => Config.draw16 d, (· + 1), by rintro s rfl rfl; exact execCapRdsample_above hidx⟩
  | nop | repClear | repPush _ | repStart | repFire | repFault | repRdstatus | repRdlen | pwrSet _ =>
    exact absurd hunit (by simp [unitOf, opcode])

/-- The state after an operation of the replay unit, by what it did to the unit, its events and its response. -/
def State.replayed (s : State) (r : Replay) (es : List TraceEvent) (v : Response) : State :=
  { s with rep := r, trace := s.trace ++ es, port := s.port.returned v }

theorem respond_eq_replayed (s : State) (v : Response) : s.respond v = s.replayed s.rep [] v := by
  simp [State.replayed, State.respond_eq]

theorem setRep_respond_eq_replayed (s : State) (r : Replay) (v : Response) :
    (s.setRep r).respond v = s.replayed r [] v := respond_eq_replayed (s.setRep r) v

theorem beginPair_respond (r : Replay) (s : State) : (beginPair r s).respond 0 =
    s.replayed { r with carrierEn := true, rstate := .on }
      [.carrierOn, .arm (duration s.cfg (replaySample s r.ridx.toNat))] 0 := by
  simp [beginPair, State.emit, State.setRep, State.replayed, State.respond_eq]

theorem beginGap_respond (r : Replay) (s : State) : (beginGap r s).respond 0 =
    s.replayed { r with rstate := .gap } [.arm s.cfg.gapUnits] 0 := rfl

theorem replayAbort_respond (s : State) : (replayAbort s).respond 0 =
    s.replayed { s.rep with rstate := .idle, carrierEn := false, lastResult := .aborted }
      (if s.rep.carrierEn then [.carrierOff] else []) 0 := by
  unfold replayAbort quietCarrier
  cases hen : s.rep.carrierEn <;> simp [State.emit, State.setRep, State.replayed, State.respond_eq, hen]

/-- What an expiry does is determined by the replay unit. -/
theorem fireReplay_determined (cfg : Config) (r : Replay) : ∃ r' es, ∀ s : State, s.cfg = cfg → s.rep = r →
    (fireReplay s).respond 0 = s.replayed r' es 0 := by
  cases hr : r.rstate with
  | idle =>
    exact ⟨r, [], by rintro s rfl rfl; rw [fireReplay_idle hr, respond_eq_replayed]⟩
  | on =>
    refine ⟨{ r with carrierEn := false, rstate := .off },
      [.carrierOff, .arm (duration cfg (memRead .rbuf r.rbuf (r.ridx.toNat + 1)))], ?_⟩
    rintro s rfl rfl
    rw [fireReplay_on hr]
    simp [State.emit, State.setRep, State.replayed, State.respond_eq, replaySample]
  | off =>
    by_cases hm : (r.ridx + 2).toNat + 1 < r.rlen.toNat
    · refine ⟨{ r with ridx := r.ridx + 2, carrierEn := true, rstate := .on },
        [.carrierOn, .arm (duration cfg (memRead .rbuf r.rbuf (r.ridx + 2).toNat))], ?_⟩
      rintro s rfl rfl
      rw [fireReplay_off_more hr hm]
      exact beginPair_respond _ s
    · refine ⟨{ r with ridx := r.ridx + 2, rstate := .gap }, [.arm cfg.gapUnits], ?_⟩
      rintro s rfl rfl
      rw [fireReplay_off_last hr hm]
      exact beginGap_respond _ s
  | gap =>
    refine ⟨{ r with rstate := .idle, lastResult := .completed }, [], ?_⟩
    rintro s rfl rfl
    rw [fireReplay_gap hr, setRep_respond_eq_replayed]

/-- What a replay operation does, its events and its response are determined by the replay unit. -/
theorem exec_of_replay_unit {i : Instr} (hunit : unitOf i = 2) (cfg : Config) (r : Replay) :
    ∃ r' es v, ∀ s : State, s.cfg = cfg → s.rep = r → exec i s = .next (s.replayed r' es v) := by
  cases i with
  | repClear =>
    by_cases hbusy : r.busy = true
    · exact ⟨r, [], 0, by rintro s rfl rfl; simp [exec, execRepClear, hbusy, respond_eq_replayed]⟩
    · refine ⟨{ r with rlen := 0, pushOvf := false }, [], 0, ?_⟩
      rintro s rfl rfl
      simp [exec, execRepClear, hbusy, setRep_respond_eq_replayed]
  | repPush val =>
    by_cases hbusy : r.busy = true
    · exact ⟨r, [], 0, by rintro s rfl rfl; simp [exec, execRepPush, hbusy, respond_eq_replayed]⟩
    · by_cases hfull : r.rlen.toNat = cfg.rbufDepth
      · refine ⟨{ r with pushOvf := true }, [], 0, ?_⟩
        rintro s rfl rfl
        simp [exec, execRepPush, hbusy, hfull, setRep_respond_eq_replayed]
      · refine ⟨{ r with rbuf := Memory.write r.rbuf r.rlen.toNat val, rlen := r.rlen + 1 }, [], 0, ?_⟩
        rintro s rfl rfl
        simp [exec, execRepPush, hbusy, hfull, setRep_respond_eq_replayed]
  | repStart =>
    by_cases hblocked : (r.busy || r.rlen == 0 || r.pushOvf) = true
    · refine ⟨r, [], 0, ?_⟩
      rintro s rfl rfl
      simp only [exec, execRepStart, hblocked, if_true, answer_eq, respond_eq_replayed]
    · by_cases hpair : 2 ≤ r.rlen.toNat
      · refine ⟨{ r with ridx := 0, carrierEn := true, rstate := .on },
          [.carrierOn, .arm (duration cfg (memRead .rbuf r.rbuf 0))], 0, ?_⟩
        rintro s rfl rfl
        simp only [exec, execRepStart, hblocked, hpair, if_true, answer_eq, beginPair_respond]
        rfl
      · refine ⟨{ r with ridx := 0, rstate := .gap }, [.arm cfg.gapUnits], 0, ?_⟩
        rintro s rfl rfl
        simp only [exec, execRepStart, hblocked, hpair, if_false, answer_eq, beginGap_respond]
        rfl
  | repFire =>
    obtain ⟨r', es, hfire⟩ := fireReplay_determined cfg r
    exact ⟨r', es, 0, fun s hcfg hrep => congrArg Host.Outcome.next (hfire s hcfg hrep)⟩
  | repFault =>
    by_cases hbusy : r.busy = true
    · refine ⟨{ r with rstate := .idle, carrierEn := false, lastResult := .aborted },
        if r.carrierEn then [.carrierOff] else [], 0, ?_⟩
      rintro s rfl rfl
      simp only [exec, execRepFault, hbusy, if_true, answer_eq, replayAbort_respond]
    · exact ⟨r, [], 0, by rintro s rfl rfl; simp [exec, execRepFault, hbusy, respond_eq_replayed]⟩
  | repRdstatus =>
    refine ⟨r, [], repStatus (State.reset.setRep r), ?_⟩
    rintro s rfl rfl
    exact congrArg Host.Outcome.next (respond_eq_replayed s _)
  | repRdlen =>
    exact ⟨r, [], r.rlen, by rintro s rfl rfl; exact congrArg Host.Outcome.next (respond_eq_replayed s _)⟩
  | nop | capArm | capCancel | capTick _ | capFault | capRdstatus | capRdlen | capRdsample _ | pwrSet _ =>
    exact absurd hunit (by simp [unitOf, opcode])

/-! ## The fields of one unit -/

/-- `P` is the part of the state that belongs to unit `k`: the operations of the other units leave it alone, and what an
operation of the unit makes of it is determined by it. -/
structure BelongsTo {α : Type} (k : BitVec 4) (P : State → α) : Prop where
  frame : ∀ {i : Instr} {s t : State}, unitOf i ≠ k → exec i s = .next t → P t = P s
  own : ∀ {i : Instr} {s s' t t' : State}, unitOf i = k → s'.cfg = s.cfg → P s' = P s → exec i s = .next t →
    exec i s' = .next t' → P t' = P t

/-- No operation changes a field of another unit. -/
theorem exec_frame {i : Instr} {s t : State} (h : exec i s = .next t) :
    (unitOf i ≠ 1 → t.cap = s.cap) ∧ (unitOf i ≠ 2 → t.rep = s.rep) ∧ (unitOf i ≠ 3 → t.pwr = s.pwr) := by
  rcases instr_by_unit i with rfl | hunit | hunit | ⟨lvl, rfl⟩
  · cases h
    exact ⟨fun _ => rfl, fun _ => rfl, fun _ => rfl⟩
  · obtain ⟨c', v, n, hexec⟩ := exec_of_capture_unit hunit s.cfg s.cap
    rw [hexec s rfl rfl] at h
    cases h
    exact ⟨fun hi => absurd hunit hi, fun _ => rfl, fun _ => rfl⟩
  · obtain ⟨r', es, v, hexec⟩ := exec_of_replay_unit hunit s.cfg s.rep
    rw [hexec s rfl rfl] at h
    cases h
    exact ⟨fun _ => rfl, fun hi => absurd hunit hi, fun _ => rfl⟩
  · cases h
    exact ⟨fun _ => rfl, fun _ => rfl, fun hi => absurd (unitOf_pwrSet lvl) hi⟩

theorem cap_belongsTo : BelongsTo 1 State.cap where
  frame hi h := (exec_frame h).1 hi
  own {i s s' t t'} hi hcfg hcap h h' := by
    obtain ⟨c', v, n, hexec⟩ := exec_of_capture_unit hi s.cfg s.cap
    rw [hexec s rfl rfl] at h
    rw [hexec s' hcfg hcap] at h'
    cases h
    cases h'
    rfl

theorem rep_belongsTo : BelongsTo 2 State.rep where
  frame hi h := (exec_frame h).2.1 hi
  own {i s s' t t'} hi hcfg hrep h h' := by
    obtain ⟨r', es, v, hexec⟩ := exec_of_replay_unit hi s.cfg s.rep
    rw [hexec s rfl rfl] at h
    rw [hexec s' hcfg hrep] at h'
    cases h
    cases h'
    rfl

theorem pwr_belongsTo : BelongsTo 3 State.pwr where
  frame hi h := (exec_frame h).2.2 hi
  own {i s s' t t'} hi _ _ h h' := by
    rcases instr_by_unit i with rfl | hunit | hunit | ⟨lvl, rfl⟩
    · exact absurd hi (by decide)
    · exact absurd (hunit.symm.trans hi) (by decide)
    · exact absurd (hunit.symm.trans hi) (by decide)
    · cases h
      cases h'
      rfl

section
variable {α : Type} {k : BitVec 4} {P : State → α} (hP : BelongsTo k P) {i j : Instr} {s a b c d : State}
  (ha : exec i s = .next a) (hb : exec j a = .next b) (hc : exec j s = .next c) (hd : exec i c = .next d)
include hP ha hb hc hd

/-- An operation that is not of the unit changes nothing of it, before or after the other. -/
theorem BelongsTo.commutes_of_outside (hj : unitOf j ≠ k) : P b = P d := by
  obtain ⟨_, hcp⟩ := exec_performed hc
  have hsame : P c = P s := hP.frame hj hc
  have hid : P d = P a := by
    by_cases hi : unitOf i = k
    · exact hP.own hi hcp.cfg hsame ha hd
    · calc P d = P c := hP.frame hi hd
        _ = P s := hsame
        _ = P a := (hP.frame hi ha).symm
  calc P b = P a := hP.frame hj hb
    _ = P d := hid.symm

/-- Of two operations of different units one is not of the unit. -/
theorem BelongsTo.commutes (hij : unitOf i ≠ unitOf j) : P b = P d := by
  by_cases hj : unitOf j = k
  · exact (hP.commutes_of_outside hc hd ha hb (hj ▸ hij)).symm
  · exact hP.commutes_of_outside ha hb hc hd hj
end

/-- Settles O40: each field belongs to one unit, and what an operation does to its unit is determined by the unit. -/
theorem unitsShareNoState : Obligations.UnitsShareNoState := by
  refine ⟨fun i s t h => ?_, fun i s r hi => ?_, fun i s c hi => ?_, fun i j s hij => ?_⟩
  · obtain ⟨hcap, hrep, hpwr⟩ := exec_frame h
    exact ⟨fun hi => ⟨hrep (by simp [hi]), hpwr (by simp [hi])⟩, fun hi => ⟨hcap (by simp [hi]), hpwr (by simp [hi])⟩,
      fun hi => ⟨hcap (by simp [hi]), hrep (by simp [hi])⟩⟩
  · obtain ⟨c', v, n, hexec⟩ := exec_of_capture_unit hi s.cfg s.cap
    exact ⟨_, _, hexec s rfl rfl, hexec { s with rep := r } rfl rfl, rfl, rfl⟩
  · obtain ⟨r', es, v, hexec⟩ := exec_of_replay_unit hi s.cfg s.rep
    exact ⟨_, _, hexec s rfl rfl, hexec { s with cap := c } rfl rfl, rfl, rfl, rfl⟩
  · obtain ⟨a, _, ha, -⟩ := exec_next i s
    obtain ⟨b, _, hb, -⟩ := exec_next j a
    obtain ⟨c, _, hc, -⟩ := exec_next j s
    obtain ⟨d, _, hd, -⟩ := exec_next i c
    exact ⟨a, b, c, d, ha, hb, hc, hd, cap_belongsTo.commutes ha hb hc hd hij, rep_belongsTo.commutes ha hb hc hd hij,
      pwr_belongsTo.commutes ha hb hc hd hij⟩

end Sys2Proof.Machine
end

section
/-! PROOF. The encoding of operations (30_encoding.md R70 to R74, R83): a word decodes to an operation exactly when its
three fields are the operation's, and a row of the opcode table admits exactly the words of its operations. -/

namespace Sys2Proof.Machine

/-! ## The word and its fields (R70) -/

theorem word_eq_append_fields (w : OpWord) : w = opField w ++ (rsvField w ++ dataField w) := by
  unfold opField rsvField dataField
  rw [BitVec.extractLsb'_append_extractLsb'_eq_extractLsb' (show 16 = 0 + 16 from rfl),
    BitVec.extractLsb'_append_extractLsb'_eq_extractLsb' (show 24 = 0 + (8 + 16) from rfl)]
  exact BitVec.extractLsb'_eq_self.symm

/-- The fields of a word are those of the operation's word (R71, R72). -/
structure FieldsOf (w : OpWord) (i : Instr) : Prop where
  op : opField w = opcode i
  rsv : rsvField w = 0
  data : dataField w = operandData i

theorem FieldsOf.encode_eq {w : OpWord} {i : Instr} (h : FieldsOf w i) : encode i = w := by
  rw [word_eq_append_fields (encode i), opField_encode, rsvField_encode, dataField_encode, ← h.op, ← h.rsv, ← h.data,
    ← word_eq_append_fields]

theorem fieldsOf_encode (i : Instr) : FieldsOf (encode i) i := ⟨opField_encode i, rsvField_encode i, dataField_encode i⟩

/-! ## The word of an operation decodes to it (R83) -/

/-- Settles O1: the round trip of each operation. -/
theorem encodedOperationDecodesBack : Obligations.EncodedOperationDecodesBack := by
  intro i
  cases i with
  | nop => exact Laws.RoundTrip.nop
  | capArm => exact Laws.RoundTrip.capArm
  | capCancel => exact Laws.RoundTrip.capCancel
  | capTick lvl => exact Laws.RoundTrip.capTick lvl
  | capFault => exact Laws.RoundTrip.capFault
  | capRdstatus => exact Laws.RoundTrip.capRdstatus
  | capRdlen => exact Laws.RoundTrip.capRdlen
  | capRdsample idx => exact Laws.RoundTrip.capRdsample idx
  | repClear => exact Laws.RoundTrip.repClear
  | repPush val => exact Laws.RoundTrip.repPush val
  | repStart => exact Laws.RoundTrip.repStart
  | repFire => exact Laws.RoundTrip.repFire
  | repFault => exact Laws.RoundTrip.repFault
  | repRdstatus => exact Laws.RoundTrip.repRdstatus
  | repRdlen => exact Laws.RoundTrip.repRdlen
  | pwrSet lvl => exact Laws.RoundTrip.pwrSet lvl

theorem decode_of_encode_eq {i : Instr} {w : OpWord} (h : encode i = w) : decode w = .ok i := by
  rw [← h]
  exact encodedOperationDecodesBack i

/-- Settles O4: each of the seven words is the word of its operation, and each of the three others breaks one rule of the
table. -/
theorem wordsOfTheSpecDecode : Obligations.WordsOfTheSpecDecode :=
  ⟨decode_of_encode_eq rfl, decode_of_encode_eq rfl, decode_of_encode_eq rfl, decode_of_encode_eq rfl,
    decode_of_encode_eq rfl, decode_of_encode_eq rfl, decode_of_encode_eq rfl, rfl, rfl, rfl⟩

/-! ## A word decodes only to the operation of its fields (R71) -/

theorem eq_bit_of_shiftRight_eq_zero {d : BitVec 16} (h : d >>> 1 = 0) : d = bit (d.getLsbD 0) := by
  have hhalf : d.toNat / 2 = 0 := by simpa [Nat.shiftRight_eq_div_pow] using congrArg BitVec.toNat h
  obtain rfl | rfl : d = 0 ∨ d = 1 := by bv_omega
  · rfl
  · rfl

theorem dataField_of_decodeBare {w : OpWord} {i j : Instr} (h : decodeBare w i = .ok j) : j = i ∧ dataField w = 0 := by
  unfold decodeBare at h
  split at h
  · next hdata =>
    cases h
    exact ⟨rfl, hdata⟩
  · cases h

theorem dataField_of_decodeLevel {w : OpWord} {f : Bool → Instr} {j : Instr} (h : decodeLevel w f = .ok j) :
    ∃ lvl, j = f lvl ∧ dataField w = bit lvl := by
  unfold decodeLevel at h
  split at h
  · next hdata =>
    cases h
    exact ⟨_, rfl, eq_bit_of_shiftRight_eq_zero hdata⟩
  · cases h

section
variable {w : OpWord} {i : Instr} {n : Nat}

theorem FieldsOf.bare {j : Instr} (hrsv : rsvField w = 0) (hop : (opField w).toNat = n)
    (h : decodeBare w j = .ok i) (hj : operandData j = 0) (hn : (opcode j).toNat = n) : FieldsOf w i := by
  obtain ⟨rfl, hdata⟩ := dataField_of_decodeBare h
  exact ⟨BitVec.eq_of_toNat_eq (hop.trans hn.symm), hrsv, hdata.trans hj.symm⟩

theorem FieldsOf.level {f : Bool → Instr} (hrsv : rsvField w = 0) (hop : (opField w).toNat = n)
    (h : decodeLevel w f = .ok i) (hf : ∀ lvl, operandData (f lvl) = bit lvl) (hn : ∀ lvl, (opcode (f lvl)).toNat = n) :
    FieldsOf w i := by
  obtain ⟨lvl, rfl, hdata⟩ := dataField_of_decodeLevel h
  exact ⟨BitVec.eq_of_toNat_eq (hop.trans (hn lvl).symm), hrsv, hdata.trans (hf lvl).symm⟩

theorem FieldsOf.wholeData {f : BitVec 16 → Instr} (hrsv : rsvField w = 0) (hop : (opField w).toNat = n)
    (h : Except.ok (ε := Reject) (f (dataField w)) = .ok i) (hf : ∀ d, operandData (f d) = d)
    (hn : ∀ d, (opcode (f d)).toNat = n) : FieldsOf w i := by
  cases h
  exact ⟨BitVec.eq_of_toNat_eq (hop.trans (hn _).symm), hrsv, (hf _).symm⟩

/-- The decoder's cases are the opcodes of R71, the last one the reserved opcodes. -/
theorem fieldsOf_of_decodeOp (hrsv : rsvField w = 0) (h : decodeOp w = .ok i) : FieldsOf w i := by
  unfold decodeOp at h
  split at h
  case h_4 hop | h_16 hop => exact .level hrsv hop h (fun _ => rfl) (fun _ => rfl)
  case h_8 hop | h_10 hop => exact .wholeData hrsv hop h (fun _ => rfl) (fun _ => rfl)
  case h_17 => cases h
  all_goals exact .bare hrsv ‹_› h rfl rfl

theorem fieldsOf_of_decode (h : decode w = .ok i) : FieldsOf w i := by
  unfold decode at h
  split at h
  · next hrsv => exact fieldsOf_of_decodeOp hrsv h
  · cases h

end

/-- Settles O2: the word and the operation's word agree in the three fields, which are the whole word. -/
theorem decodedWordEncodesBack : Obligations.DecodedWordEncodesBack :=
  fun _ _ h => (fieldsOf_of_decode h).encode_eq

theorem decode_iff (w : OpWord) (i : Instr) : decode w = .ok i ↔ FieldsOf w i :=
  ⟨fieldsOf_of_decode, fun h => decode_of_encode_eq h.encode_eq⟩

/-! ## The opcode table (R71, R73) -/

theorem admits_iff (r : OpRow) (a : Agent) (w : OpWord) : r.admits a w = true ↔
    opField w = r.op ∧ rsvField w = 0 ∧ dataField w &&& ~~~ r.dataMask = 0 ∧ r.issuers.contains a = true := by
  simp [OpRow.admits, opField, rsvField, dataField, and_assoc]

theorem wellFormedWord_iff (a : Agent) (w : OpWord) :
    wellFormedWord a w = true ↔ ∃ r ∈ opTable, r.admits a w = true := List.any_eq_true

/-- The data bits that the row of an operation allows to be nonzero: bit 0 for a level, all of them for an index or a
value (R72). -/
def operandMask (i : Instr) : BitVec 16 :=
  match i with
  | .capTick _ | .pwrSet _ => 0x0001
  | .capRdsample _ | .repPush _ => 0xFFFF
  | _ => 0x0000

/-- An operation's row, made of the opcode and the issuers that the decoder's side gives it; it stands in the table
(`rowOf_mem_opTable`). -/
def rowOf (i : Instr) : OpRow := ⟨opcode i, [.host, .env].filter i.mayBeIssuedBy, operandMask i⟩

theorem rowOf_mem_opTable (i : Instr) : rowOf i ∈ opTable := by
  cases i <;> simp [rowOf, opTable, opcode, operandMask, Instr.mayBeIssuedBy]

theorem rowOf_issuers_contains (i : Instr) (a : Agent) : (rowOf i).issuers.contains a = i.mayBeIssuedBy a := by
  cases a <;> simp [rowOf]

theorem operandData_and_not_mask (i : Instr) : operandData i &&& ~~~ operandMask i = 0 := by
  cases i with
  | capTick lvl | pwrSet lvl => cases lvl <;> rfl
  | capRdsample d | repPush d => simp [operandData, operandMask]
  | _ => rfl

theorem eq_zero_of_bare {d : BitVec 16} (h : d &&& ~~~ 0x0000 = 0) : d = 0 := by
  rw [← h]
  exact BitVec.and_allOnes.symm

theorem eq_bit_of_level {d : BitVec 16} (h : d &&& ~~~ 0x0001 = 0) : d = bit (d.getLsbD 0) := by
  apply eq_bit_of_shiftRight_eq_zero
  apply BitVec.eq_of_getLsbD_eq
  intro k hk
  have hbit := congrArg (fun x => x.getLsbD (1 + k)) h
  rw [BitVec.getLsbD_and, BitVec.getLsbD_not] at hbit
  simp only [BitVec.getLsbD_ushiftRight, BitVec.ofNat_eq_ofNat, BitVec.getLsbD_zero]
  by_cases hwidth : 1 + k < 16
  · simpa [hwidth] using hbit
  · exact BitVec.getLsbD_of_ge _ _ (Nat.not_lt.1 hwidth)

/-- Every row with every data field it allows is the row of an operation. -/
theorem exists_instr_of_row {r : OpRow} (hr : r ∈ opTable) {d : BitVec 16} (hd : d &&& ~~~ r.dataMask = 0) :
    ∃ i, rowOf i = r ∧ operandData i = d := by
  simp only [opTable, List.mem_cons, List.not_mem_nil, or_false] at hr
  obtain rfl | rfl | rfl | rfl | rfl | rfl | rfl | rfl | rfl | rfl | rfl | rfl | rfl | rfl | rfl | rfl := hr
  · exact ⟨.nop, rfl, (eq_zero_of_bare hd).symm⟩
  · exact ⟨.capArm, rfl, (eq_zero_of_bare hd).symm⟩
  · exact ⟨.capCancel, rfl, (eq_zero_of_bare hd).symm⟩
  · exact ⟨.capTick (d.getLsbD 0), rfl, (eq_bit_of_level hd).symm⟩
  · exact ⟨.capFault, rfl, (eq_zero_of_bare hd).symm⟩
  · exact ⟨.capRdstatus, rfl, (eq_zero_of_bare hd).symm⟩
  · exact ⟨.capRdlen, rfl, (eq_zero_of_bare hd).symm⟩
  · exact ⟨.capRdsample d, rfl, rfl⟩
  · exact ⟨.repClear, rfl, (eq_zero_of_bare hd).symm⟩
  · exact ⟨.repPush d, rfl, rfl⟩
  · exact ⟨.repStart, rfl, (eq_zero_of_bare hd).symm⟩
  · exact ⟨.repFire, rfl, (eq_zero_of_bare hd).symm⟩
  · exact ⟨.repFault, rfl, (eq_zero_of_bare hd).symm⟩
  · exact ⟨.repRdstatus, rfl, (eq_zero_of_bare hd).symm⟩
  · exact ⟨.repRdlen, rfl, (eq_zero_of_bare hd).symm⟩
  · exact ⟨.pwrSet (d.getLsbD 0), rfl, (eq_bit_of_level hd).symm⟩

theorem admits_rowOf_iff (i : Instr) (a : Agent) (w : OpWord) : (rowOf i).admits a w = true ↔
    opField w = opcode i ∧ rsvField w = 0 ∧ dataField w &&& ~~~ operandMask i = 0 ∧ i.mayBeIssuedBy a = true := by
  rw [admits_iff, rowOf_issuers_contains]
  exact Iff.rfl

/-- Settles O3: a row that admits a word is the row of an operation with the word's fields, and the other way round. -/
theorem acceptedExactlyWhenWellFormed : Obligations.AcceptedExactlyWhenWellFormed := by
  intro a w
  rw [wellFormedWord_iff]
  constructor
  · rintro ⟨r, hr, hadmits⟩
    obtain ⟨-, -, hmask, -⟩ := (admits_iff r a w).1 hadmits
    obtain ⟨i, rfl, hdata⟩ := exists_instr_of_row hr hmask
    obtain ⟨hop, hrsv, -, hissuer⟩ := (admits_rowOf_iff i a w).1 hadmits
    exact ⟨i, (decode_iff w i).2 ⟨hop, hrsv, hdata.symm⟩, hissuer⟩
  · rintro ⟨i, hdecode, hissuer⟩
    obtain ⟨hop, hrsv, hdata⟩ := (decode_iff w i).1 hdecode
    exact ⟨rowOf i, rowOf_mem_opTable i, (admits_rowOf_iff i a w).2
      ⟨hop, hrsv, hdata ▸ operandData_and_not_mask i, hissuer⟩⟩

/-! ## Ill-formed words (R74) -/

theorem performWord_eq_ignoreWord {a : Agent} {w : OpWord} (h : wellFormedWord a w = false) (s : State) :
    performWord a w s = ignoreWord s := by
  have hrefused : ∀ i, decode w = .ok i → ¬ i.mayBeIssuedBy a = true := fun i hd ha =>
    Bool.false_ne_true (h.symm.trans ((acceptedExactlyWhenWellFormed a w).2 ⟨i, hd, ha⟩))
  unfold performWord
  split
  · next i hd => rw [if_neg (hrefused i hd)]
  · rfl

/-- No row of the table has an opcode of the four reserved ranges. -/
theorem opTable_not_reserved : ∀ r ∈ opTable, ¬ (0x01 ≤ r.op.toNat ∧ r.op.toNat ≤ 0x0F ∨
    0x17 ≤ r.op.toNat ∧ r.op.toNat ≤ 0x1F ∨ 0x27 ≤ r.op.toNat ∧ r.op.toNat ≤ 0x2F ∨ 0x31 ≤ r.op.toNat) := by
  decide

/-- Settles O7: the delivered word is ignored, and a row that admits a word has its opcode. -/
theorem illFormedWordsAreIgnored : Obligations.IllFormedWordsAreIgnored := by
  constructor
  · intro s a w ds hc hs hill
    calc step s = deliver (.word a w) (s.setStream ds) := step_eq_deliver hc hs
      _ = ignoreWord (s.setStream ds) := performWord_eq_ignoreWord hill _
  · intro a w op hreserved
    refine Bool.eq_false_iff.2 fun hwell => ?_
    obtain ⟨r, hr, hadmits⟩ := (wellFormedWord_iff a w).1 hwell
    obtain ⟨hop, -⟩ := (admits_iff r a w).1 hadmits
    exact opTable_not_reserved r hr (hop ▸ hreserved)

/-! ## A sample of the input line (R72, 60_exceptions.md R252) -/

/-- Settles O10: ENV delivers the word of the CAP.TICK, which it may issue. -/
theorem lineSampleDeliversTheLogicalLevel : Obligations.LineSampleDeliversTheLogicalLevel := by
  intro s high ds hc hs
  calc step s = deliver (.lineTick high) (s.setStream ds) := step_eq_deliver hc hs
    _ = exec (.capTick (levelOfLine s.cfg high)) (s.setStream ds) :=
      performWord_eq_exec (encodedOperationDecodesBack _) rfl _

end Sys2Proof.Machine
end

section
/-! PROOF. The status words, field by field (30_encoding.md R76 to R78). -/

namespace Sys2Proof.Machine

/-! ## The bits of a shifted code -/

theorem getLsbD_of_toNat_lt {x : Response} {m k : Nat} (hx : x.toNat < 2 ^ m) (hk : m ≤ k) : x.getLsbD k = false :=
  Nat.testBit_eq_false_of_lt (hx.trans_le (Nat.pow_le_pow_right (by decide) hk))

/-- A code of `m` bits, shifted to bit `n`, has its bits from `n` to below `n + m`. -/
theorem getLsbD_code_shiftLeft {x : Response} {m n : Nat} (hx : x.toNat < 2 ^ m) (hn : n + m ≤ 16) (k : Nat) :
    (x <<< n).getLsbD k = (decide (n ≤ k ∧ k < n + m) && x.getLsbD (k - n)) := by
  rw [BitVec.getLsbD_shiftLeft]
  by_cases hk : k < n + m
  · have hwidth : k < 16 := hk.trans_le hn
    simp only [hk, hwidth, decide_true, Bool.true_and, and_true, ← decide_not, Nat.not_lt]
  · rw [getLsbD_of_toNat_lt hx (show m ≤ k - n by omega), Bool.and_false, Bool.and_false]

theorem getLsbD_bit_shiftLeft (b : Bool) {n : Nat} (hn : n < 16) (k : Nat) :
    (bit b <<< n).getLsbD k = (decide (k = n) && b) := by
  rw [getLsbD_code_shiftLeft (m := 1) (by cases b <;> decide) hn]
  by_cases hk : k = n
  · subst hk
    cases b <;> simp
  · simp [hk, show ¬ (n ≤ k ∧ k ≤ n) by omega]

/-- A code of `m` bits at bit 0. -/
theorem getLsbD_code {x : Response} {m : Nat} (hx : x.toNat < 2 ^ m) (k : Nat) :
    x.getLsbD k = (decide (k < m) && x.getLsbD k) := by
  by_cases hk : k < m
  · simp only [hk, decide_true, Bool.true_and]
  · rw [getLsbD_of_toNat_lt hx (Nat.not_lt.1 hk), Bool.and_false]

theorem CState.code_lt (c : CState) : c.code.toNat < 2 ^ 3 := by cases c <;> decide

theorem AbortReason.code_lt (r : AbortReason) : r.code.toNat < 2 ^ 2 := by cases r <;> decide

theorem RState.code_lt (r : RState) : r.code.toNat < 2 ^ 2 := by cases r <;> decide

theorem LastResult.code_lt (r : LastResult) : r.code.toNat < 2 ^ 2 := by cases r <;> decide

/-! ## The words of an operation's own rule -/

theorem issued_of_encode_eq {a : Agent} {w : OpWord} {i : Instr} (hw : encode i = w)
    (hissuer : ∀ b, i.mayBeIssuedBy b = (b == a)) : Issued a w i :=
  ⟨decode_of_encode_eq hw, fun b => by rw [hissuer b, beq_iff_eq]⟩

/-! ## The capture status word (R76, R77) -/

/-- The layout of R77, bit by bit. -/
theorem capStatus_getLsbD (s : State) (k : Nat) : (capStatus s).getLsbD k =
    (decide (k = 7) && s.pwr || decide (5 ≤ k ∧ k < 7) && s.cap.abortReason.code.getLsbD (k - 5) ||
      decide (k = 4) && s.cap.cancelReq || decide (k = 3) && s.cap.level ||
      decide (k < 3) && s.cap.cstate.code.getLsbD k) := by
  simp only [capStatus, BitVec.getLsbD_or, getLsbD_bit_shiftLeft _ (show 7 < 16 by decide),
    getLsbD_bit_shiftLeft _ (show 4 < 16 by decide), getLsbD_bit_shiftLeft _ (show 3 < 16 by decide),
    getLsbD_code_shiftLeft s.cap.abortReason.code_lt (show 5 + 2 ≤ 16 by decide),
    ← getLsbD_code s.cap.cstate.code_lt]

section
variable {s : State}

theorem capStatus_cstate {c : CState} (h : s.cap.cstate = c) : (capStatus s).extractLsb' 0 3 = c.code.setWidth 3 := by
  subst h
  apply BitVec.eq_of_getLsbD_eq
  grind [capStatus_getLsbD, BitVec.getLsbD_setWidth]

theorem capStatus_level : (capStatus s).getLsbD 3 = s.cap.level := by
  grind [capStatus_getLsbD]

theorem capStatus_cancelReq : (capStatus s).getLsbD 4 = s.cap.cancelReq := by
  grind [capStatus_getLsbD]

theorem capStatus_abortReason {r : AbortReason} (h : s.cap.abortReason = r) :
    (capStatus s).extractLsb' 5 2 = r.code.setWidth 2 := by
  subst h
  apply BitVec.eq_of_getLsbD_eq
  grind [capStatus_getLsbD, BitVec.getLsbD_setWidth]

theorem capStatus_pwr : (capStatus s).getLsbD 7 = s.pwr := by
  grind [capStatus_getLsbD]

theorem capStatus_zeros : (capStatus s).extractLsb' 8 8 = 0 := by
  apply BitVec.eq_of_getLsbD_eq
  grind [capStatus_getLsbD]

end

/-- Settles O20: the response is the status word, each field is a part of its layout. -/
theorem captureStatusWordFields : Obligations.CaptureStatusWordFields :=
  ⟨issued_of_encode_eq rfl fun _ => rfl, fun s => ⟨_, capStatus s, rfl, rfl, capStatus_cstate, capStatus_cstate,
    capStatus_cstate, capStatus_cstate, capStatus_cstate, capStatus_level, capStatus_cancelReq, capStatus_abortReason,
    capStatus_abortReason, capStatus_abortReason, capStatus_abortReason, capStatus_pwr, capStatus_zeros⟩⟩

/-! ## The replay status word (R78) -/

/-- The layout of R78, bit by bit. -/
theorem repStatus_getLsbD (s : State) (k : Nat) : (repStatus s).getLsbD k =
    (decide (4 ≤ k ∧ k < 6) && s.rep.lastResult.code.getLsbD (k - 4) || decide (k = 3) && s.rep.pushOvf ||
      decide (k = 2) && s.rep.carrierEn || decide (k < 2) && s.rep.rstate.code.getLsbD k) := by
  simp only [repStatus, BitVec.getLsbD_or, getLsbD_bit_shiftLeft _ (show 3 < 16 by decide),
    getLsbD_bit_shiftLeft _ (show 2 < 16 by decide),
    getLsbD_code_shiftLeft s.rep.lastResult.code_lt (show 4 + 2 ≤ 16 by decide), ← getLsbD_code s.rep.rstate.code_lt]

section
variable {s : State}

theorem repStatus_rstate {r : RState} (h : s.rep.rstate = r) : (repStatus s).extractLsb' 0 2 = r.code.setWidth 2 := by
  subst h
  apply BitVec.eq_of_getLsbD_eq
  grind [repStatus_getLsbD, BitVec.getLsbD_setWidth]

theorem repStatus_carrierEn : (repStatus s).getLsbD 2 = s.rep.carrierEn := by
  grind [repStatus_getLsbD]

theorem repStatus_pushOvf : (repStatus s).getLsbD 3 = s.rep.pushOvf := by
  grind [repStatus_getLsbD]

theorem repStatus_lastResult {r : LastResult} (h : s.rep.lastResult = r) :
    (repStatus s).extractLsb' 4 2 = r.code.setWidth 2 := by
  subst h
  apply BitVec.eq_of_getLsbD_eq
  grind [repStatus_getLsbD, BitVec.getLsbD_setWidth]

theorem repStatus_zeros : (repStatus s).extractLsb' 6 10 = 0 := by
  apply BitVec.eq_of_getLsbD_eq
  grind [repStatus_getLsbD]

end

/-- Settles O28: the response is the status word, each field is a part of its layout. -/
theorem replayStatusWordFields : Obligations.ReplayStatusWordFields :=
  ⟨issued_of_encode_eq rfl fun _ => rfl, fun s => ⟨_, repStatus s, rfl, rfl, repStatus_rstate, repStatus_rstate,
    repStatus_rstate, repStatus_rstate, repStatus_carrierEn, repStatus_pushOvf, repStatus_lastResult,
    repStatus_lastResult, repStatus_lastResult, repStatus_zeros⟩⟩

end Sys2Proof.Machine
end

section
/-! PROOF. The pulse-train codec (40_codec.md R100 to R108): a group decodes exactly when its four characters are hex
digits, and it then is the text of the decoded sample, up to case. -/

namespace Sys2Proof.Machine

/-! ## Digits and pairs of digits (R100, R101) -/

/-- The value of a character is the digit it is written as. -/
theorem hexVal_eq_some_iff {c : BitVec 8} {n : BitVec 4} :
    hexVal c = some n ↔ isHexChar c = true ∧ hexDigit n = toUpperHex c := by
  have hc := hexDigit_hexVal c
  constructor
  · intro h
    rw [h] at hc
    split at hc
    next hhex => exact ⟨hhex, Option.some.inj hc⟩
    next => cases hc
  · rintro ⟨hhex, hn⟩
    rw [if_pos hhex, ← hn] at hc
    obtain ⟨m, hm, hmn⟩ := Option.map_eq_some_iff.1 hc
    have hback := hexVal_hexDigit m
    rw [hmn, hexVal_hexDigit] at hback
    rw [hm, hback]

theorem hexVal_eq_none_iff {c : BitVec 8} : hexVal c = none ↔ isHexChar c = false := by
  rw [← Option.map_eq_none_iff (f := hexDigit), hexDigit_hexVal]
  simp

/-- Two parts put together are a word exactly when each is the word's field. -/
theorem append_eq_iff {m n : Nat} {hi : BitVec m} {lo : BitVec n} {x : BitVec (m + n)} :
    hi ++ lo = x ↔ hi = x.extractLsb' n m ∧ lo = x.extractLsb' 0 n := by
  constructor
  · rintro rfl
    exact ⟨BitVec.extractLsb'_append_eq_left.symm, BitVec.extractLsb'_append_eq_right.symm⟩
  · rintro ⟨rfl, rfl⟩
    rw [BitVec.extractLsb'_append_extractLsb'_eq_extractLsb' (Nat.zero_add n).symm, BitVec.extractLsb'_eq_self]

theorem hexVal2_eq_some_iff {a b x : BitVec 8} : hexVal2 a b = some x ↔
    hexVal a = some (x.extractLsb' 4 4) ∧ hexVal b = some (x.extractLsb' 0 4) := by
  unfold hexVal2
  cases hexVal a <;> cases hexVal b <;> simp [append_eq_iff (m := 4) (n := 4)]

theorem hexVal2_eq_none_iff {a b : BitVec 8} : hexVal2 a b = none ↔ hexVal a = none ∨ hexVal b = none := by
  unfold hexVal2
  cases hexVal a <;> cases hexVal b <;> simp

/-! ## One group (R104) -/

theorem decodeGroup_eq_some_iff_pairs {a b c d : BitVec 8} {v : Sample} : decodeGroup a b c d = some v ↔
    hexVal2 a b = some (v.extractLsb' 0 8) ∧ hexVal2 c d = some (v.extractLsb' 8 8) := by
  unfold decodeGroup
  cases hexVal2 a b <;> cases hexVal2 c d <;> simp [append_eq_iff (m := 8) (n := 8), and_comm]

theorem decodeGroup_eq_some_iff {a b c d : BitVec 8} {v : Sample} : decodeGroup a b c d = some v ↔
    (∀ x ∈ [a, b, c, d], isHexChar x = true) ∧ encodeSample v = [a, b, c, d].map toUpperHex := by
  simp [decodeGroup_eq_some_iff_pairs, hexVal2_eq_some_iff, hexVal_eq_some_iff, encodeSample, hex2, and_assoc,
    and_left_comm]

theorem exists_not_hexChar_of_decodeGroup {a b c d : BitVec 8} (h : decodeGroup a b c d = none) :
    ∃ x ∈ [a, b, c, d], isHexChar x = false := by
  have hpair : hexVal2 a b = none ∨ hexVal2 c d = none := by
    unfold decodeGroup at h
    cases hab : hexVal2 a b <;> cases hcd : hexVal2 c d <;> simp_all
  simp only [hexVal2_eq_none_iff, hexVal_eq_none_iff] at hpair
  simpa [or_assoc] using hpair

/-! ## The encoded text (R102, R103) -/

theorem encodeTrain_cons_eq_append (v : Sample) (t : Train) : encodeTrain (v :: t) = encodeSample v ++ encodeTrain t :=
  List.flatMap_cons

theorem length_encodeTrain (t : Train) : (encodeTrain t).length = 4 * t.length := by
  induction t with
  | nil => rfl
  | cons v t ih => simp only [encodeTrain_cons, List.length_cons, ih]; omega

theorem upperHex_of_mem_encodeTrain (t : Train) : ∀ c ∈ encodeTrain t, upperHex c = true := by
  induction t with
  | nil => exact fun c hc => absurd hc List.not_mem_nil
  | cons v t ih => simpa [encodeTrain_cons, upperHex_hexDigit] using ih

theorem map_toUpperHex_of_upperHex {s : Text} (h : ∀ c ∈ s, upperHex c = true) : s.map toUpperHex = s :=
  (List.map_congr_left fun c hc => toUpperHex_of_upperHex c (h c hc)).trans (List.map_id s)

/-- Settles O50, by induction on the train. -/
theorem encodedTextShape : Obligations.EncodedTextShape :=
  fun train => ⟨length_encodeTrain train, upperHex_of_mem_encodeTrain train⟩

/-! ## The decoded text (R104, R105) -/

theorem decodeText_malformed {s : Text} (h : s = [] ∨ s.length % 4 ≠ 0) :
    decodeText s = .error .malformedGroupLength :=
  if_pos (h.imp_left List.length_eq_zero_iff.2)

theorem decodeText_eq_decodeGroups {s : Text} (hs : s ≠ []) (hlen : s.length % 4 = 0) :
    decodeText s = decodeGroups s :=
  if_neg (not_or.2 ⟨mt List.length_eq_zero_iff.1 hs, not_not.2 hlen⟩)

theorem decodeGroups_of_group {a b c d : BitVec 8} {v : Sample} (h : decodeGroup a b c d = some v) (rest : Text) :
    decodeGroups (a :: b :: c :: d :: rest) = (decodeGroups rest).map (v :: ·) := by
  simp only [decodeGroups, h]

/-- What the loop over whole groups can answer: a train whose text it is, or the error of a bad digit. -/
theorem decodeGroups_cases {s : Text} (hlen : s.length % 4 = 0) :
    (∃ t, decodeGroups s = .ok t ∧ (∀ c ∈ s, isHexChar c = true) ∧ encodeTrain t = s.map toUpperHex) ∨
    decodeGroups s = .error .invalidHexDigit ∧ ∃ c ∈ s, isHexChar c = false := by
  induction s using decodeGroups.induct with
  | case1 => exact .inl ⟨[], rfl, by simp, rfl⟩
  | case2 a b c d rest v hv ih =>
    obtain ⟨hhex, henc⟩ := decodeGroup_eq_some_iff.1 hv
    rw [decodeGroups_of_group hv]
    obtain ⟨t, ht, hrest, hup⟩ | ⟨herr, x, hx, hbad⟩ := ih (by simp only [List.length_cons] at hlen; omega)
    · refine .inl ⟨v :: t, by rw [ht]; rfl, List.forall_mem_append.2 ⟨hhex, hrest⟩, ?_⟩
      rw [encodeTrain_cons_eq_append, henc, hup, ← List.map_append]
      rfl
    · exact .inr ⟨by rw [herr]; rfl, x, List.mem_append_right [a, b, c, d] hx, hbad⟩
  | case3 a b c d rest hv =>
    obtain ⟨x, hx, hbad⟩ := exists_not_hexChar_of_decodeGroup hv
    exact .inr ⟨by simp only [decodeGroups, hv], x, List.mem_append_left rest hx, hbad⟩
  | case4 s hnil hgroup =>
    match s, hlen with
    | [], _ => exact (hnil rfl).elim
    | a :: b :: c :: d :: rest, _ => exact (hgroup a b c d rest rfl).elim

/-- Settles O51, by what the loop over whole groups can answer. -/
theorem decodeAcceptsExactlyHexGroups : Obligations.DecodeAcceptsExactlyHexGroups := by
  intro s
  refine ⟨decodeText_malformed, fun hs hlen hhex => ?_, fun hs hlen ⟨x, hx, hbad⟩ => ?_⟩
  · rw [decodeText_eq_decodeGroups hs hlen]
    obtain ⟨t, ht, -, hup⟩ | ⟨-, x, hx, hbad⟩ := decodeGroups_cases hlen
    · exact ⟨t, ht, by rw [← length_encodeTrain, hup, List.length_map]⟩
    · cases (hhex x hx).symm.trans hbad
  · rw [decodeText_eq_decodeGroups hs hlen]
    obtain ⟨-, -, hhex, -⟩ | ⟨herr, -⟩ := decodeGroups_cases hlen
    · cases (hhex x hx).symm.trans hbad
    · exact herr

/-! ## The round trip (R106) -/

theorem decodeGroups_encodeSample_append (v : Sample) (s : Text) :
    decodeGroups (encodeSample v ++ s) = (decodeGroups s).map (v :: ·) :=
  decodeGroups_of_group (decodeGroup_eq_some_iff_pairs.2
    ⟨hexVal2_eq_some_iff.2 ⟨hexVal_hexDigit _, hexVal_hexDigit _⟩,
      hexVal2_eq_some_iff.2 ⟨hexVal_hexDigit _, hexVal_hexDigit _⟩⟩) s

theorem decodeGroups_encodeTrain (t : Train) : decodeGroups (encodeTrain t) = .ok t := by
  induction t with
  | nil => rfl
  | cons v t ih =>
    rw [encodeTrain_cons_eq_append, decodeGroups_encodeSample_append, ih]
    rfl

theorem decodeText_encodeTrain {t : Train} (h : 1 ≤ t.length) : decodeText (encodeTrain t) = .ok t := by
  have hlen := length_encodeTrain t
  rw [decodeText_eq_decodeGroups (List.ne_nil_of_length_pos (by omega)) (by omega), decodeGroups_encodeTrain]

theorem encodeTrain_of_decodeText {s : Text} {t : Train} (h : decodeText s = .ok t) :
    encodeTrain t = s.map toUpperHex := by
  by_cases hbad : s = [] ∨ s.length % 4 ≠ 0
  · cases (decodeText_malformed hbad).symm.trans h
  · obtain ⟨hs, hlen⟩ := not_or.1 hbad
    rw [decodeText_eq_decodeGroups hs (not_not.1 hlen)] at h
    obtain ⟨t', ht', -, hup⟩ | ⟨herr, -⟩ := decodeGroups_cases (not_not.1 hlen)
    · cases ht'.symm.trans h
      exact hup
    · cases herr.symm.trans h

/-- Settles O49, by the round trip of the groups and by what the loop over them can answer. -/
theorem codecRoundTrip : Obligations.CodecRoundTrip :=
  ⟨fun _ => decodeText_encodeTrain, fun _ _ h => ⟨encodeTrain_of_decodeText h, fun hup =>
    (encodeTrain_of_decodeText h).trans (map_toUpperHex_of_upperHex hup)⟩⟩

/-! ## The time-unit view (R107, R108) -/

/-- Settles O52, by the bound on the duration of one sample. -/
theorem timeUnitsScaleLinearly : Obligations.TimeUnitsScaleLinearly := by
  intro c train
  refine ⟨List.length_map _, fun i _ => List.getElem?_map, fun hc d hd => ?_⟩
  obtain ⟨v, -, rfl⟩ := List.mem_map.1 hd
  exact duration_lt hc v

end Sys2Proof.Machine
end

section
/-! PROOF. The commands, the fault and the reads of the capture unit (41_capture.md R130 to R133, R138, R140, R141). -/

namespace Sys2Proof.Machine

/-! ## CAP.ARM, CAP.CANCEL and CAP.FAULT (R130, R131, R138) -/

theorem not_active_iff (c : Capture) :
    c.active = false ↔ c.cstate = .stopped ∨ c.cstate = .done ∨ c.cstate = .aborted := by
  cases h : c.cstate <;> simp [Capture.active, h]

/-- The next state of an operation that leaves the unit as `c` in an active cycle and as `d` otherwise, and answers
0x0000. -/
theorem next_by_activity {i : Instr} {s : State} {c d : Capture}
    (h : exec i s = if s.cap.active then answer 0x0000 (s.setCap c) else answer 0x0000 (s.setCap d)) :
    ∃ t, exec i s = .next t ∧ OnlyCapture s t 0x0000 ∧
      ((s.cap.cstate = .wait ∨ s.cap.cstate = .count) → t.cap = c) ∧
      ((s.cap.cstate = .stopped ∨ s.cap.cstate = .done ∨ s.cap.cstate = .aborted) → t.cap = d) := by
  rw [← active_iff, ← not_active_iff]
  cases hactive : s.cap.active <;> simp only [hactive] at h
  · exact ⟨_, h, rfl, by simp, fun _ => rfl⟩
  · exact ⟨_, h, rfl, fun _ => rfl, by simp⟩

/-- Settles O13: CAP.ARM keeps the unit in an active cycle and writes six of its fields otherwise. -/
theorem capArmStartsACycle : Obligations.CapArmStartsACycle := by
  refine ⟨issued_of_encode_eq rfl fun _ => rfl, fun s => ?_⟩
  obtain ⟨t, ht, honly, hactive, hfree⟩ := next_by_activity (i := .capArm) (s := s) (c := s.cap) rfl
  refine ⟨t, ht, honly, hactive, fun h => ?_⟩
  rw [hfree h]
  exact ⟨rfl, rfl, rfl, rfl, rfl, rfl, rfl⟩

/-- Settles O14: CAP.CANCEL writes one field in an active cycle and keeps the unit otherwise. -/
theorem capCancelRequestsCancellation : Obligations.CapCancelRequestsCancellation :=
  ⟨issued_of_encode_eq rfl fun _ => rfl, fun s => next_by_activity (d := s.cap) rfl⟩

/-- Settles O19: CAP.FAULT is the capture abort in an active cycle and keeps the unit otherwise. -/
theorem capFaultAbortsTheCycle : Obligations.CapFaultAbortsTheCycle :=
  ⟨issued_of_encode_eq rfl fun _ => rfl, fun s => next_by_activity (d := s.cap) rfl⟩

/-! ## The checks of CAP.TICK, and TICK_WAIT (R132, R133) -/

theorem exec_capTick (lvl : Bool) (s : State) :
    exec (.capTick lvl) s = .next ((s.setCap (tickCapture s.cfg lvl s.cap)).respond 0x0000) := rfl

/-- Settles O15: what a tick does to the unit, by the order of its checks. -/
theorem capTickChecksInOrder : Obligations.CapTickChecksInOrder := by
  refine ⟨issued_of_encode_eq rfl fun _ => rfl, issued_of_encode_eq rfl fun _ => rfl, fun s lvl => ?_⟩
  refine ⟨_, exec_capTick lvl s, rfl, fun hfree => ?_, fun hactive hcancel => ?_, fun hwait hcancel => ?_,
    fun hcount hcancel => ?_⟩
  · exact tickCapture_ignored ((not_active_iff s.cap).2 hfree) s.cfg lvl
  · exact tickCapture_cancelled ((active_iff s.cap).2 hactive) hcancel s.cfg lvl
  · exact tickCapture_wait hwait hcancel s.cfg lvl
  · exact tickCapture_count hcount hcancel s.cfg lvl

/-- Settles O16: in WAIT a tick is TICK_WAIT, which a negated level leaves at once. -/
theorem waitEntersCountOnAsserted : Obligations.WaitEntersCountOnAsserted := by
  intro s hwait hcancel
  refine ⟨⟨_, exec_capTick false s, ?_⟩, _, exec_capTick true s, rfl, tickCapture_wait hwait hcancel s.cfg true⟩
  rw [tickCapture_wait hwait hcancel]
  rfl

/-! ## CAP.RDLEN, REP.RDLEN and CAP.RDSAMPLE (R140, R141, 42_replay.md R176) -/

/-- Settles O21: each length read only answers with the length. -/
theorem lengthReadsReturnTheLengths : Obligations.LengthReadsReturnTheLengths :=
  ⟨issued_of_encode_eq rfl fun _ => rfl, issued_of_encode_eq rfl fun _ => rfl,
    fun _ => ⟨⟨_, rfl, rfl⟩, ⟨_, rfl, rfl⟩⟩⟩

theorem encode_capRdsample (idx : BitVec 16) : encode (.capRdsample idx) = 0x16000000 ||| idx.setWidth 32 := by
  simp [encode, opcode, operandData]

/-- Settles O22: below clen the read answers with the entry; elsewhere it draws, which is outside the block. -/
theorem capRdsampleReturnsTheEntry : Obligations.CapRdsampleReturnsTheEntry := by
  refine ⟨fun idx => issued_of_encode_eq (encode_capRdsample idx) fun _ => rfl, fun s idx => ?_⟩
  by_cases hidx : idx.toNat < s.cap.clen.toNat
  · exact ⟨_, _, execCapRdsample_below hidx, ⟨rfl, rfl, rfl, rfl, rfl⟩, rfl, fun _ => ⟨rfl, fun _ => memRead_of_read?⟩⟩
  · exact ⟨_, _, execCapRdsample_above hidx, ⟨rfl, rfl, rfl, rfl, rfl⟩, rfl, fun h => absurd h hidx⟩

end Sys2Proof.Machine
end

section
/-! PROOF. TICK_COUNT (41_capture.md R134 to R137): a tick of a counting unit at the current level and at the other. -/

namespace Sys2Proof.Machine

/-! ## A tick at the current level (R134, R136) -/

/-- The unit with one more PACE on its count (R134). -/
def Capture.counted (cfg : Config) (c : Capture) : Capture :=
  { c with count := BitVec.ofNat 16 (c.count.toNat + cfg.pace) }

theorem tickCount_same (cfg : Config) (c : Capture) : tickCount cfg c.level c = timeoutCheck cfg (c.counted cfg) := by
  simp [tickCount, Capture.counted]

/-- The timeout that finds room: the run is pushed and the cycle is DONE. -/
theorem timeoutCheck_done {cfg : Config} {c : Capture} (h : cfg.timeout ≤ c.count.toNat)
    (hroom : c.clen.toNat ≠ cfg.cbufDepth) :
    timeoutCheck cfg c = { c.pushed c.count with cstate := .done } := by
  rw [timeoutCheck_reached h, pushSample_eq_pushed hroom]

/-- The timeout that finds the buffer full. -/
theorem timeoutCheck_full {cfg : Config} {c : Capture} (h : cfg.timeout ≤ c.count.toNat)
    (hfull : c.clen.toNat = cfg.cbufDepth) : timeoutCheck cfg c = capAbort .overflow c := by
  rw [timeoutCheck_reached h, pushSample_full hfull]

/-- The timeout check ends the cycle or not, with the count and the level of the run. -/
theorem timeoutCheck_run (cfg : Config) (c : Capture) :
    (timeoutCheck cfg c).count = c.count ∧ (timeoutCheck cfg c).level = c.level := by
  by_cases h : cfg.timeout ≤ c.count.toNat
  · by_cases hfull : c.clen.toNat = cfg.cbufDepth
    · rw [timeoutCheck_full h hfull]
      exact ⟨rfl, rfl⟩
    · rw [timeoutCheck_done h hfull]
      exact ⟨rfl, rfl⟩
  · rw [timeoutCheck_below (Nat.not_le.1 h)]
    exact ⟨rfl, rfl⟩

/-! ## A tick at the other level (R135) -/

theorem tickCount_change_room {cfg : Config} {c : Capture} {lvl : Bool} (hc : configOk cfg = true)
    (hlvl : lvl ≠ c.level) (hroom : c.clen.toNat ≠ cfg.cbufDepth) :
    tickCount cfg lvl c = { c.pushed c.count with level := !c.level, count := 0 } := by
  rw [tickCount, if_neg hlvl, pushSample_eq_pushed hroom, timeoutCheck_restart hc rfl]
  rfl

theorem tickCount_change_full {cfg : Config} {c : Capture} {lvl : Bool} (hlvl : lvl ≠ c.level)
    (hfull : c.clen.toNat = cfg.cbufDepth) : tickCount cfg lvl c = capAbort .overflow c := by
  rw [tickCount, if_neg hlvl, pushSample_full hfull]

/-! ## The two statements -/

theorem exec_capTick_counting {s : State} (hcount : s.cap.cstate = .count) (hcancel : s.cap.cancelReq = false)
    (lvl : Bool) : exec (.capTick lvl) s = .next ((s.setCap (tickCount s.cfg lvl s.cap)).respond 0x0000) := by
  rw [exec_capTick, tickCapture_count hcount hcancel]

/-- A push puts the sample at index clen. -/
theorem captured_of_pushed {t : State} {c : Capture} {v : Sample} (h : t.cap.cbuf = (c.pushed v).cbuf) :
    t.captured c.clen.toNat = v := by
  rw [State.captured, h, memRead_pushed, if_pos rfl]

/-- A push leaves every other entry as it was. -/
theorem read?_pushed_of_ne (c : Capture) (v : Sample) {j : Nat} (hj : j ≠ c.clen.toNat) :
    Memory.read? (c.pushed v).cbuf j = Memory.read? c.cbuf j := by
  rw [Capture.pushed, Memory.read?_write, if_neg hj]

/-- Settles O17: the count grows by PACE without wrapping, and the timeout check leaves it, pushes it or finds the buffer
full. -/
theorem sameLevelTickCountsAndTimesOut : Obligations.SameLevelTickCountsAndTimesOut := by
  intro s hc hs hcount hcancel
  have hadd : (s.cap.counted s.cfg).count.toNat = s.cap.count.toNat + s.cfg.pace :=
    count_add_pace hc (hs.countBelow hcount)
  obtain ⟨hrun, hlevel⟩ := timeoutCheck_run s.cfg (s.cap.counted s.cfg)
  refine ⟨_, exec_capTick_counting hcount hcancel _, rfl, ?_⟩
  simp only [State.respond_cap, State.setCap_cap, tickCount_same, hrun]
  refine ⟨hadd, hlevel, fun hbelow => ?_, fun hreached hroom => ?_, fun hreached hfull => ?_⟩
  · rw [timeoutCheck_below hbelow]
    rfl
  · rw [timeoutCheck_done hreached hroom.ne]
    exact ⟨rfl, hs.train.pushed_clen hc hroom.ne s.cap.count, captured_of_pushed rfl,
      fun _ => read?_pushed_of_ne _ _, hcancel, rfl⟩
  · rw [timeoutCheck_full hreached hfull]
    rfl

/-- Settles O18: the ended run is pushed and a new one begins, or the buffer is full. -/
theorem levelChangePushesTheRun : Obligations.LevelChangePushesTheRun := by
  intro s hc hs hcount hcancel
  have hlvl : (!s.cap.level) ≠ s.cap.level := Bool.not_ne_self _
  refine ⟨_, exec_capTick_counting hcount hcancel _, rfl, fun hroom => ?_, fun hfull => ?_⟩
  · rw [tickCount_change_room hc hlvl hroom.ne]
    exact ⟨hcount, rfl, rfl, hs.train.pushed_clen hc hroom.ne s.cap.count, captured_of_pushed rfl,
      fun _ => read?_pushed_of_ne _ _, hcancel, rfl⟩
  · rw [tickCount_change_full hlvl hfull]
    rfl

end Sys2Proof.Machine
end

section
/-! PROOF. The shape of a completed train (41_capture.md R142). -/

namespace Sys2Proof.Machine

/-! ## The captured train as a list -/

theorem length_capturedTrain (s : State) : s.capturedTrain.length = s.cap.clen.toNat := by
  simp [State.capturedTrain]

theorem forall_mem_captured {s : State} {n : Nat} {p : Sample → Prop} (h : ∀ i, i < n → p (s.captured i)) :
    ∀ v ∈ (List.range n).map s.captured, p v := by
  simpa using h

/-- A train of at least one sample ends with the entry below clen. -/
theorem capturedTrain_eq_concat {s : State} {n : Nat} (h : s.cap.clen.toNat = n + 1) :
    s.capturedTrain = (List.range n).map s.captured ++ [s.captured n] := by
  simp [State.capturedTrain, h, List.range_succ]

/-! ## Entering DONE (R136) -/

/-- The unit completes its train: it was counting, and its last count is pushed. -/
structure CompletesTrain (cfg : Config) (c c' : Capture) : Prop where
  counting : c.cstate = .count
  room : c.clen.toNat ≠ cfg.cbufDepth
  buffer : c'.cbuf = (c.pushed c'.count).cbuf
  length : c'.clen = (c.pushed c'.count).clen

theorem timeoutCheck_completes {cfg : Config} {c : Capture} (hcount : c.cstate = .count)
    (hdone : (timeoutCheck cfg c).cstate = .done) : CompletesTrain cfg c (timeoutCheck cfg c) := by
  by_cases hreached : cfg.timeout ≤ c.count.toNat
  · by_cases hfull : c.clen.toNat = cfg.cbufDepth
    · rw [timeoutCheck_full hreached hfull] at hdone
      cases hdone
    · rw [timeoutCheck_done hreached hfull]
      exact ⟨hcount, hfull, rfl, rfl⟩
  · rw [timeoutCheck_below (Nat.not_le.1 hreached), hcount] at hdone
    cases hdone

/-- A tick completes the train only by the timeout of the current run: a level change leaves the unit counting or finds
the buffer full. -/
theorem tickCount_completes {cfg : Config} {c : Capture} {lvl : Bool} (hc : configOk cfg = true)
    (hcount : c.cstate = .count) (hdone : (tickCount cfg lvl c).cstate = .done) :
    CompletesTrain cfg c (tickCount cfg lvl c) := by
  by_cases hlvl : lvl = c.level
  · subst hlvl
    rw [tickCount_same] at hdone ⊢
    obtain ⟨hcounting, hroom, hbuf, hlen⟩ := timeoutCheck_completes (c := c.counted cfg) hcount hdone
    exact ⟨hcounting, hroom, hbuf, hlen⟩
  · by_cases hfull : c.clen.toNat = cfg.cbufDepth
    · rw [tickCount_change_full hlvl hfull] at hdone
      cases hdone
    · rw [tickCount_change_room hc hlvl hfull] at hdone
      cases hcount.symm.trans hdone

theorem tickCapture_completes {cfg : Config} {c : Capture} {lvl : Bool} (hc : configOk cfg = true)
    (hnot : c.cstate ≠ .done) (hdone : (tickCapture cfg lvl c).cstate = .done) :
    CompletesTrain cfg c (tickCapture cfg lvl c) := by
  cases hactive : c.active with
  | false =>
    rw [tickCapture_ignored hactive] at hdone
    exact absurd hdone hnot
  | true =>
    cases hcancel : c.cancelReq with
    | true =>
      rw [tickCapture_cancelled hactive hcancel] at hdone
      cases hdone
    | false =>
      rcases (active_iff c).1 hactive with hwait | hcount
      · rw [tickCapture_wait hwait hcancel] at hdone
        cases lvl
        · exact absurd hdone hnot
        · cases hdone
      · rw [tickCapture_count hcount hcancel] at hdone ⊢
        exact tickCount_completes hc hcount hdone

/-- Of the operations only a tick enters DONE. -/
theorem CaptureMove.completes {cfg : Config} {c c' : Capture} (h : CaptureMove cfg c c') (hc : configOk cfg = true)
    (hnot : c.cstate ≠ .done) (hdone : c'.cstate = .done) : CompletesTrain cfg c c' := by
  cases h with
  | kept | cancelAsked => exact absurd hdone hnot
  | armed | faulted => cases hdone
  | ticked lvl => exact tickCapture_completes hc hnot hdone

theorem step_completes {s t : State} (h : step s = .next t) (hnot : s.cap.cstate ≠ .done)
    (hdone : t.cap.cstate = .done) : CompletesTrain s.cfg s.cap t.cap := by
  obtain ⟨hc, ⟨-, hreset⟩ | ⟨-, hkept | ⟨i, u, v, hu, hi, hv⟩⟩⟩ := step_block h
  · rw [hreset.cap] at hdone
    cases hdone
  · exact absurd (hkept.cap ▸ hdone) hnot
  · obtain ⟨hmove, -⟩ := exec_moves hi
    rw [hu.cfg, hu.cap, ← hv.cap] at hmove
    exact hmove.completes hc hnot hdone

/-- The completed train is the samples pushed before with the last count behind them. -/
theorem CompletesTrain.capturedTrain_eq {s t : State} (h : CompletesTrain s.cfg s.cap t.cap) (hs : CaptureInv s)
    (hc : configOk s.cfg = true) : t.capturedTrain = s.capturedTrain ++ [t.cap.count] := by
  have hlen : t.cap.clen.toNat = s.cap.clen.toNat + 1 := by
    rw [h.length]
    exact hs.train.pushed_clen hc h.room _
  have hbefore : (List.range s.cap.clen.toNat).map t.captured = s.capturedTrain := by
    refine List.map_congr_left fun i hi => memRead_congr ?_
    rw [h.buffer]
    exact read?_pushed_of_ne _ _ (List.mem_range.1 hi).ne
  rw [capturedTrain_eq_concat hlen, hbefore, captured_of_pushed h.buffer]

/-! ## The statement -/

/-- Settles O43: the shape is the capture invariant of DONE read off the train, and only the timeout of a counting unit
enters DONE. -/
theorem completedTrainShape : Obligations.CompletedTrainShape := by
  intro s t hs h hdone train
  have ht : CaptureInv t := stepKeepsTheCaptureInvariant s t hs h
  obtain ⟨hc, -⟩ := step_block h
  rw [← step_cfg h]
  obtain ⟨hsome, hlow, hhigh⟩ := ht.doneLast hdone
  obtain ⟨n, hn⟩ : ∃ n, t.cap.clen.toNat = n + 1 := Nat.exists_eq_add_one.2 hsome
  have hlast : t.cap.clen.toNat - 1 = n := by omega
  have hconcat : train = (List.range n).map t.captured ++ [t.captured n] := capturedTrain_eq_concat hn
  have hlength : train.length = t.cap.clen.toNat := length_capturedTrain t
  have hruns := ht.doneRuns hdone
  rw [hlast] at hlow hhigh hruns
  refine ⟨hlength ▸ hsome, forall_mem_captured ht.multiples, ?_, ?_, ?_, fun hnot => ?_⟩
  · rw [hconcat, List.dropLast_concat]
    exact forall_mem_captured hruns
  · rw [hconcat, List.getLast?_concat]
    rintro v ⟨⟩
    exact ⟨hlow, hhigh⟩
  · rw [hlength, ← Bool.not_eq_true]
    exact (not_congr (ht.doneLevel hdone)).trans (by omega)
  · have hcompletes := step_completes h hnot hdone
    exact ⟨hcompletes.counting, hcompletes.capturedTrain_eq hs hc⟩

end Sys2Proof.Machine
end

section
/-! PROOF. The laws of a run over several ticks (41_capture.md R143, R144). -/

namespace Sys2Proof.Machine

/-! ## Operations performed one after another -/

theorem execAll_cons {i : Instr} {s t : State} (h : exec i s = .next t) (is : List Instr) :
    execAll (i :: is) s = execAll is t := by
  simp [execAll, h]

theorem execAll_append {is : List Instr} {s t : State} (h : execAll is s = .next t) (js : List Instr) :
    execAll (is ++ js) s = execAll js t := by
  induction is generalizing s with
  | nil =>
    cases h
    rfl
  | cons i is ih =>
    obtain ⟨u, -, hu, -⟩ := exec_next i s
    rw [execAll_cons hu] at h
    rw [List.cons_append, execAll_cons hu, ih h]

/-! ## A run under way -/

/-- The unit counts a run at a level, with no cancel requested. -/
structure InRun (s : State) (lvl : Bool) : Prop where
  config : configOk s.cfg = true
  inv : CaptureInv s
  counting : s.cap.cstate = .count
  level : s.cap.level = lvl
  noCancel : s.cap.cancelReq = false

/-- The tick that begins a run adds nothing to it. -/
theorem BeginsRun.inRun {s t : State} {lvl : Bool} (h : BeginsRun s t lvl) (hc : configOk s.cfg = true)
    (hs : CaptureInv s) : t.cfg = s.cfg ∧ InRun t lvl ∧ t.cap.count = 0 := by
  obtain ⟨htick, hcounting, hbegin⟩ := h
  have ht := exec_keeps_captureInv hs hc htick
  cases htick
  refine ⟨rfl, ?_⟩
  suffices hrun : (tickCapture s.cfg lvl s.cap).level = lvl ∧ (tickCapture s.cfg lvl s.cap).cancelReq = false ∧
      (tickCapture s.cfg lvl s.cap).count = 0 by
    obtain ⟨hlevel, hcancel, hcount⟩ := hrun
    exact ⟨⟨hc, ht, hcounting, hlevel, hcancel⟩, hcount⟩
  simp only [State.respond_cap, State.setCap_cap] at hcounting
  have hactive : s.cap.active = true := (active_iff s.cap).2 (hbegin.imp_right And.left)
  cases hcancel : s.cap.cancelReq with
  | true =>
    rw [tickCapture_cancelled hactive hcancel] at hcounting
    cases hcounting
  | false =>
    obtain hwait | ⟨hcount, hlvl⟩ := hbegin
    · rw [tickCapture_wait hwait hcancel] at hcounting ⊢
      cases lvl
      · cases hwait.symm.trans hcounting
      · exact ⟨rfl, hcancel, rfl⟩
    · rw [tickCapture_count hcount hcancel] at hcounting ⊢
      by_cases hfull : s.cap.clen.toNat = s.cfg.cbufDepth
      · rw [tickCount_change_full hlvl hfull] at hcounting
        cases hcounting
      · rw [tickCount_change_room hc hlvl hfull]
        exact ⟨(Bool.eq_not.2 hlvl).symm, hcancel, rfl⟩

/-- A tick that holds the level below the timeout only counts (R134). -/
theorem InRun.tick_below {s : State} {lvl : Bool} (h : InRun s lvl)
    (hbelow : s.cap.count.toNat + s.cfg.pace < s.cfg.timeout) :
    ∃ u, exec (.capTick lvl) s = .next u ∧ InRun u lvl ∧ u.cfg = s.cfg ∧
      u.cap = { s.cap with count := u.cap.count } ∧ u.cap.count.toNat = s.cap.count.toNat + s.cfg.pace := by
  obtain ⟨hc, hs, hcounting, hlevel, hcancel⟩ := h
  subst hlevel
  obtain ⟨u, hu, -, hadd, -, hkeeps, -⟩ := sameLevelTickCountsAndTimesOut s hc hs hcounting hcancel
  obtain ⟨_, hp⟩ := exec_performed hu
  have hcap := hkeeps (hadd ▸ hbelow)
  have hinv := exec_keeps_captureInv hs hc hu
  refine ⟨u, hu, ⟨hp.cfg ▸ hc, hinv, ?_, ?_, ?_⟩, hp.cfg, hcap, hadd⟩ <;> rw [hcap]
  · exact hcounting
  · exact hcancel

/-- Ticks that hold the level below the timeout only count, each one PACE. -/
theorem InRun.ticks_below {lvl : Bool} (k : Nat) : ∀ {s : State}, InRun s lvl →
    s.cap.count.toNat + k * s.cfg.pace < s.cfg.timeout →
    ∃ u, execAll (List.replicate k (.capTick lvl)) s = .next u ∧ InRun u lvl ∧ u.cfg = s.cfg ∧
      u.cap = { s.cap with count := u.cap.count } ∧ u.cap.count.toNat = s.cap.count.toNat + k * s.cfg.pace := by
  induction k with
  | zero => exact fun {s} h _ => ⟨s, rfl, h, rfl, rfl, by simp⟩
  | succ k ih =>
    intro s h hbelow
    rw [Nat.succ_mul] at hbelow
    obtain ⟨t, ht, hrun, hcfg, hcap, hadd⟩ := h.tick_below (by omega)
    obtain ⟨u, hu, hrun', hcfg', hcap', hadd'⟩ := ih hrun (by rw [hcfg, hadd]; omega)
    refine ⟨u, ?_, hrun', hcfg'.trans hcfg, ?_, ?_⟩
    · rw [List.replicate_succ, execAll_cons ht, hu]
    · rw [hcap', hcap]
    · rw [hadd', hadd, hcfg, Nat.succ_mul]
      omega

/-- The run a tick began, `k` ticks later, while it is below the timeout. -/
theorem BeginsRun.held {s t : State} {lvl : Bool} (h : BeginsRun s t lvl) (hc : configOk s.cfg = true)
    (hs : CaptureInv s) {k : Nat} (hk : k * s.cfg.pace < s.cfg.timeout) :
    ∃ u, execAll (List.replicate k (.capTick lvl)) t = .next u ∧ InRun u lvl ∧ u.cfg = s.cfg ∧
      u.cap = { t.cap with count := u.cap.count } ∧ u.cap.count.toNat = k * s.cfg.pace := by
  obtain ⟨hcfg, hrun, hzero⟩ := h.inRun hc hs
  have hstart : t.cap.count.toNat = 0 := by rw [hzero]; rfl
  have hheld := hrun.ticks_below k
  rw [hcfg, hstart, Nat.zero_add] at hheld
  exact hheld hk

/-! ## The run-length law (R143) -/

/-- Settles O44: the run counts r - 1 ticks, and the level change pushes its count. -/
theorem runLengthLaw : Obligations.RunLengthLaw := by
  intro s t lvl r hc hs hbegin _ hr hroom
  obtain ⟨u, hu, ⟨hcu, hsu, hcounting, hlevel, hcancel⟩, hcfg, hcap, hcount⟩ := hbegin.held hc hs hr
  obtain ⟨v, hv, -, hpush, -⟩ := levelChangePushesTheRun u hcu hsu hcounting hcancel
  have hclen : u.cap.clen = t.cap.clen := by rw [hcap]
  have hbuf : u.cap.cbuf = t.cap.cbuf := by rw [hcap]
  rw [hlevel, hclen, hcfg, hbuf] at hpush
  rw [hlevel] at hv
  obtain ⟨hstate, hflip, hrestart, hlen, hpushed, hothers, -⟩ := hpush hroom
  refine ⟨v, ?_, hstate, hflip, hrestart, hlen, ?_, fun i hi => memRead_congr (hothers i hi.ne)⟩
  · rw [execAll_append hu, execAll_cons hv]
    rfl
  · rw [hpushed, hcount]

/-! ## The timeout boundary law (R144) -/

/-- The ticks that stay below the timeout are those before the j-th. -/
theorem lt_timeoutTicks_iff {p : Nat} (hp : 1 ≤ p) (n k : Nat) : k < (n + p - 1) / p ↔ k * p < n := by
  rw [← Nat.ceilDiv_eq_add_pred_div, Nat.mul_comm, ← not_le, ← not_le, ceilDiv_le_iff_le_mul hp]

/-- Settles O45: the run counts at each tick before the j-th, which finds the timeout reached and room for the run. -/
theorem timeoutBoundaryLaw : Obligations.TimeoutBoundaryLaw := by
  intro s t lvl hc hs hbegin hroom j
  have hconstraints := (configOk_iff s.cfg).1 hc
  have hticks : ∀ k, k < j ↔ k * s.cfg.pace < s.cfg.timeout := lt_timeoutTicks_iff hconstraints.pace.1 s.cfg.timeout
  refine ⟨fun k hk => ?_, ?_, fun hpace => by simp [j, hpace]⟩
  · obtain ⟨u, hu, hrun, -, hcap, -⟩ := hbegin.held hc hs ((hticks k).1 hk)
    exact ⟨u, hu, hrun.counting, by rw [hcap]⟩
  · have hpos : 0 < j := (hticks 0).2 ((Nat.zero_mul _).trans_lt hconstraints.timeout.1)
    obtain ⟨k, hk⟩ : ∃ k, j = k + 1 := Nat.exists_eq_add_one.2 hpos
    have hreached : s.cfg.timeout ≤ k * s.cfg.pace + s.cfg.pace := by
      rw [← Nat.succ_mul, ← Nat.not_lt, ← hticks, hk]
      exact lt_irrefl _
    obtain ⟨u, hu, ⟨hcu, hsu, hcounting, hlevel, hcancel⟩, hcfg, hcap, hcount⟩ :=
      hbegin.held hc hs ((hticks k).1 (by omega))
    obtain ⟨v, hv, -, hadd, -, -, htimeout, -⟩ := sameLevelTickCountsAndTimesOut u hcu hsu hcounting hcancel
    have hclen : u.cap.clen = t.cap.clen := by rw [hcap]
    rw [hlevel] at hv
    rw [hcfg, hcount] at hadd
    rw [hcfg, hclen, hadd] at htimeout
    obtain ⟨hdone, hlen, hpushed, -⟩ := htimeout hreached hroom
    refine ⟨v, ?_, hdone, hlen, ?_⟩
    · rw [hk, List.replicate_succ', execAll_append hu, execAll_cons hv]
      rfl
    · rw [hpushed, hadd, hk, Nat.succ_mul]

end Sys2Proof.Machine
end

section
/-! PROOF. The operations of the replay unit (42_replay.md R170 to R174), an equation for each case. -/

namespace Sys2Proof.Machine

/-- An operation of the replay unit leaves everything else alone. -/
theorem onlyReplay_replayed (s : State) (r : Replay) (es : List TraceEvent) (v : Response) :
    OnlyReplay s (s.replayed r es v) v := rfl

@[simp] theorem replayed_cfg (s : State) (r : Replay) (es : List TraceEvent) (v : Response) :
    (s.replayed r es v).cfg = s.cfg := rfl
@[simp] theorem replayed_rep (s : State) (r : Replay) (es : List TraceEvent) (v : Response) :
    (s.replayed r es v).rep = r := rfl
@[simp] theorem replayed_trace (s : State) (r : Replay) (es : List TraceEvent) (v : Response) :
    (s.replayed r es v).trace = s.trace ++ es := rfl

theorem busy_eq_false_iff (r : Replay) : r.busy = false ↔ r.rstate = .idle := by simp [Replay.busy]

/-- A listed entry is armed for its time units. -/
theorem duration_replaySample {s : State} {i : Nat} {v : Sample} (h : Memory.read? s.rep.rbuf i = some v) :
    duration s.cfg (replaySample s i) = v.toNat * s.cfg.tickUnits := by
  rw [duration, replaySample, memRead_of_read? h]

/-! ## REP.CLEAR (R170) -/

theorem exec_repClear_busy {s : State} (h : s.rep.rstate ≠ .idle) :
    exec .repClear s = .next (s.replayed s.rep [] 0) := by
  rw [exec, execRepClear, if_pos ((busy_iff s.rep).2 h), answer_eq, respond_eq_replayed]

theorem exec_repClear_idle {s : State} (h : s.rep.rstate = .idle) :
    exec .repClear s = .next (s.replayed { s.rep with rlen := 0, pushOvf := false } [] 0) := by
  rw [exec, execRepClear, (busy_eq_false_iff s.rep).2 h, if_neg Bool.false_ne_true, answer_eq,
    setRep_respond_eq_replayed]

/-- Settles O23: the unit is busy or in IDLE. -/
theorem repClearEmptiesTheBuffer : Obligations.RepClearEmptiesTheBuffer := by
  refine ⟨issued_of_encode_eq rfl fun _ => rfl, fun s => ?_⟩
  by_cases hidle : s.rep.rstate = .idle
  · exact ⟨_, exec_repClear_idle hidle, onlyReplay_replayed .., by simp, fun hbusy => absurd hidle hbusy, fun _ => rfl⟩
  · exact ⟨_, exec_repClear_busy hidle, onlyReplay_replayed .., by simp, fun _ => rfl, fun h => absurd h hidle⟩

/-! ## REP.PUSH (R171) -/

theorem encode_repPush (val : Sample) : encode (.repPush val) = 0x21000000 ||| val.setWidth 32 := by
  simp [encode, opcode, operandData]

theorem exec_repPush_busy {s : State} (h : s.rep.rstate ≠ .idle) (val : Sample) :
    exec (.repPush val) s = .next (s.replayed s.rep [] 0) := by
  rw [exec, execRepPush, if_pos ((busy_iff s.rep).2 h), answer_eq, respond_eq_replayed]

theorem exec_repPush_full {s : State} (h : s.rep.rstate = .idle) (hfull : s.rep.rlen.toNat = s.cfg.rbufDepth)
    (val : Sample) : exec (.repPush val) s = .next (s.replayed { s.rep with pushOvf := true } [] 0) := by
  rw [exec, execRepPush, (busy_eq_false_iff s.rep).2 h, if_neg Bool.false_ne_true, if_pos hfull, answer_eq,
    setRep_respond_eq_replayed]

theorem exec_repPush_room {s : State} (h : s.rep.rstate = .idle) (hroom : s.rep.rlen.toNat ≠ s.cfg.rbufDepth)
    (val : Sample) : exec (.repPush val) s = .next (s.replayed { s.rep with
      rbuf := Memory.write s.rep.rbuf s.rep.rlen.toNat val, rlen := s.rep.rlen + 1 } [] 0) := by
  rw [exec, execRepPush, (busy_eq_false_iff s.rep).2 h, if_neg Bool.false_ne_true, if_neg hroom, answer_eq,
    setRep_respond_eq_replayed]

/-- Settles O24: the unit is busy, full, or has room, where the length grows without wrapping. -/
theorem repPushAppends : Obligations.RepPushAppends := by
  refine ⟨fun val => issued_of_encode_eq (encode_repPush val) fun _ => rfl, fun s val hc hs => ?_⟩
  by_cases hidle : s.rep.rstate = .idle
  · by_cases hfull : s.rep.rlen.toNat = s.cfg.rbufDepth
    · exact ⟨_, exec_repPush_full hidle hfull val, onlyReplay_replayed .., by simp, fun hbusy => absurd hidle hbusy,
        fun _ _ => rfl, fun _ hroom => absurd hfull hroom.ne⟩
    · have hroom : s.rep.rlen.toNat < s.cfg.rbufDepth := lt_of_le_of_ne hs.lenFits hfull
      have hdepth := ((configOk_iff s.cfg).1 hc).rbufDepth
      refine ⟨_, exec_repPush_room hidle hfull val, onlyReplay_replayed .., by simp, fun hbusy => absurd hidle hbusy,
        fun _ h => absurd h hfull, fun _ _ => ⟨rfl, toNat_succ hroom hdepth.2, by simp, fun j hj => by simp [hj]⟩⟩
  · exact ⟨_, exec_repPush_busy hidle val, onlyReplay_replayed .., by simp, fun _ => rfl, fun h => absurd h hidle,
      fun h => absurd h hidle⟩

/-! ## REP.START (R172) -/

theorem exec_repStart_ignored {s : State} (h : s.rep.rstate ≠ .idle ∨ s.rep.rlen = 0 ∨ s.rep.pushOvf = true) :
    exec .repStart s = .next (s.replayed s.rep [] 0) := by
  have hblocked : (s.rep.busy || s.rep.rlen == 0 || s.rep.pushOvf) = true := by
    simpa only [Bool.or_eq_true, beq_iff_eq, busy_iff, or_assoc] using h
  rw [exec, execRepStart, if_pos hblocked, answer_eq, respond_eq_replayed]

theorem exec_repStart_loaded {s : State} (h : s.rep.rstate = .idle) (hovf : s.rep.pushOvf = false)
    (hlen : s.rep.rlen ≠ 0) : exec .repStart s = if 2 ≤ s.rep.rlen.toNat
      then .next ((beginPair { s.rep with ridx := 0 } s).respond 0)
      else .next ((beginGap { s.rep with ridx := 0 } s).respond 0) := by
  have hfree : (s.rep.busy || s.rep.rlen == 0 || s.rep.pushOvf) = false := by
    rw [(busy_eq_false_iff s.rep).2 h, beq_eq_false_iff_ne.2 hlen, hovf]
    rfl
  rw [exec, execRepStart, hfree, if_neg Bool.false_ne_true]
  rfl

theorem exec_repStart_pair {s : State} (h : s.rep.rstate = .idle) (hovf : s.rep.pushOvf = false)
    (hpair : 2 ≤ s.rep.rlen.toNat) :
    exec .repStart s = .next (s.replayed { s.rep with ridx := 0, carrierEn := true, rstate := .on }
      [.carrierOn, .arm (duration s.cfg (replaySample s 0))] 0) := by
  rw [exec_repStart_loaded h hovf (by bv_omega), if_pos hpair, beginPair_respond]
  rfl

theorem exec_repStart_lone {s : State} (h : s.rep.rstate = .idle) (hovf : s.rep.pushOvf = false)
    (hlone : s.rep.rlen = 1) :
    exec .repStart s = .next (s.replayed { s.rep with ridx := 0, rstate := .gap } [.arm s.cfg.gapUnits] 0) := by
  rw [exec_repStart_loaded h hovf (by simp [hlone]), if_neg (by simp [hlone]), beginGap_respond]

/-- What REP.START finds: nothing it may start, a pair, or a lone mark. -/
theorem repStart_cases (r : Replay) : (r.rstate ≠ .idle ∨ r.rlen = 0 ∨ r.pushOvf = true) ∨
    (r.rstate = .idle ∧ r.pushOvf = false ∧ 2 ≤ r.rlen.toNat) ∨
    (r.rstate = .idle ∧ r.pushOvf = false ∧ r.rlen = 1) := by
  by_cases hblocked : r.rstate ≠ .idle ∨ r.rlen = 0 ∨ r.pushOvf = true
  · exact .inl hblocked
  · obtain ⟨hidle, hlen, hovf⟩ : r.rstate = .idle ∧ r.rlen ≠ 0 ∧ r.pushOvf = false := by simpa using hblocked
    have hcount : 2 ≤ r.rlen.toNat ∨ r.rlen = 1 := by bv_omega
    exact .inr (hcount.imp (fun h => ⟨hidle, hovf, h⟩) (fun h => ⟨hidle, hovf, h⟩))

/-- Settles O25: the start is ignored, or there is a pair, or a lone mark. -/
theorem repStartBeginsTheTrain : Obligations.RepStartBeginsTheTrain := by
  refine ⟨issued_of_encode_eq rfl fun _ => rfl, fun s => ?_⟩
  obtain hblocked | ⟨hidle, hovf, hpair⟩ | ⟨hidle, hovf, hlone⟩ := repStart_cases s.rep
  · have hempty : s.rep.rstate = .idle → s.rep.pushOvf = false → s.rep.rlen = 0 := by
      intro hidle hovf
      simpa [hidle, hovf] using hblocked
    exact ⟨_, exec_repStart_ignored hblocked, onlyReplay_replayed .., fun _ => ⟨rfl, by simp⟩,
      fun hidle hovf hpair => by simp [hempty hidle hovf] at hpair,
      fun hidle hovf hlone => by simp [hempty hidle hovf] at hlone⟩
  · refine ⟨_, exec_repStart_pair hidle hovf hpair, onlyReplay_replayed .., fun hblocked => ?_,
      fun _ _ _ => ⟨rfl, fun v hv => by rw [replayed_trace, duration_replaySample hv]⟩,
      fun _ _ hlone => by simp [hlone] at hpair⟩
    have hempty : s.rep.rlen = 0 := by simpa [hidle, hovf] using hblocked
    simp [hempty] at hpair
  · exact ⟨_, exec_repStart_lone hidle hovf hlone, onlyReplay_replayed .., fun h => by simp [hidle, hovf, hlone] at h,
      fun _ _ hpair => by simp [hlone] at hpair, fun _ _ _ => ⟨rfl, rfl⟩⟩

/-! ## REP.FIRE (R173) -/

theorem exec_repFire (s : State) : exec .repFire s = .next ((fireReplay s).respond 0) := rfl

theorem exec_repFire_idle {s : State} (h : s.rep.rstate = .idle) :
    exec .repFire s = .next (s.replayed s.rep [] 0) := by
  rw [exec_repFire, fireReplay_idle h, respond_eq_replayed]

theorem exec_repFire_on {s : State} (h : s.rep.rstate = .on) :
    exec .repFire s = .next (s.replayed { s.rep with carrierEn := false, rstate := .off }
      [.carrierOff, .arm (duration s.cfg (replaySample s (s.rep.ridx.toNat + 1)))] 0) := by
  rw [exec_repFire, fireReplay_on h]
  simp [State.emit, State.setRep, State.replayed, State.respond_eq]

theorem exec_repFire_more {s : State} (h : s.rep.rstate = .off)
    (hmore : (s.rep.ridx + 2).toNat + 1 < s.rep.rlen.toNat) :
    exec .repFire s = .next (s.replayed { s.rep with ridx := s.rep.ridx + 2, carrierEn := true, rstate := .on }
      [.carrierOn, .arm (duration s.cfg (replaySample s (s.rep.ridx + 2).toNat))] 0) := by
  rw [exec_repFire, fireReplay_off_more h hmore, beginPair_respond]

theorem exec_repFire_last {s : State} (h : s.rep.rstate = .off)
    (hlast : ¬ (s.rep.ridx + 2).toNat + 1 < s.rep.rlen.toNat) :
    exec .repFire s =
      .next (s.replayed { s.rep with ridx := s.rep.ridx + 2, rstate := .gap } [.arm s.cfg.gapUnits] 0) := by
  rw [exec_repFire, fireReplay_off_last h hlast, beginGap_respond]

theorem exec_repFire_gap {s : State} (h : s.rep.rstate = .gap) :
    exec .repFire s = .next (s.replayed { s.rep with rstate := .idle, lastResult := .completed } [] 0) := by
  rw [exec_repFire, fireReplay_gap h, setRep_respond_eq_replayed]

/-- Settles O26: one case for each state, with the pointer moved past a pair without wrapping. -/
theorem repFireAdvancesTheSequencer : Obligations.RepFireAdvancesTheSequencer := by
  refine ⟨issued_of_encode_eq rfl fun _ => rfl, fun s _ hs => ?_⟩
  cases hstate : s.rep.rstate with
  | idle => exact ⟨_, exec_repFire_idle hstate, onlyReplay_replayed .., by simp⟩
  | on =>
    refine ⟨_, exec_repFire_on hstate, onlyReplay_replayed .., by simp, fun _ => ⟨rfl, fun v hv => ?_⟩, by simp⟩
    rw [replayed_trace, duration_replaySample hv]
  | off =>
    have hridx : (s.rep.ridx + 2).toNat = s.rep.ridx.toNat + 2 := ridx_add_two (hs.pairLeft (.inr hstate))
    by_cases hmore : s.rep.ridx.toNat + 3 < s.rep.rlen.toNat
    · refine ⟨_, exec_repFire_more hstate (by omega), onlyReplay_replayed .., by simp, by simp,
        fun _ _ => ⟨rfl, hridx, fun v hv => ?_⟩, fun _ h => absurd hmore (Nat.not_lt.2 h), by simp⟩
      rw [replayed_trace, duration_replaySample (hridx ▸ hv)]
    · exact ⟨_, exec_repFire_last hstate (by omega), onlyReplay_replayed .., by simp, by simp,
        fun _ h => absurd h hmore, fun _ _ => ⟨rfl, hridx, rfl⟩, by simp⟩
  | gap => exact ⟨_, exec_repFire_gap hstate, onlyReplay_replayed .., by simp⟩

/-! ## REP.FAULT (R174) -/

theorem exec_repFault_idle {s : State} (h : s.rep.rstate = .idle) :
    exec .repFault s = .next (s.replayed s.rep [] 0) := by
  rw [exec, execRepFault, (busy_eq_false_iff s.rep).2 h, if_neg Bool.false_ne_true, answer_eq, respond_eq_replayed]

theorem exec_repFault_busy {s : State} (h : s.rep.rstate ≠ .idle) :
    exec .repFault s = .next (s.replayed { s.rep with rstate := .idle, carrierEn := false, lastResult := .aborted }
      (if s.rep.carrierEn then [.carrierOff] else []) 0) := by
  rw [exec, execRepFault, if_pos ((busy_iff s.rep).2 h), answer_eq, replayAbort_respond]

/-- Settles O27: the unit is in IDLE or busy. -/
theorem repFaultAbortsTheTrain : Obligations.RepFaultAbortsTheTrain := by
  refine ⟨issued_of_encode_eq rfl fun _ => rfl, fun s => ?_⟩
  by_cases hidle : s.rep.rstate = .idle
  · exact ⟨_, exec_repFault_idle hidle, onlyReplay_replayed .., by simp, fun hbusy => absurd hidle hbusy⟩
  · exact ⟨_, exec_repFault_busy hidle, onlyReplay_replayed .., fun h => absurd h hidle, fun _ => ⟨rfl, rfl⟩⟩

end Sys2Proof.Machine
end

section
/-! PROOF. The laws of a replayed train (42_replay.md R177 to R179). -/

namespace Sys2Proof.Machine

/-! ## The emission law (R177)

REP.START and the expiry that ends a pair do the same thing: they begin what is left of the train. So the law is an
induction on what is left, in the two steps of `emission`. -/

/-- What is left of the train, from element `ridx` of the buffer on. -/
structure Remaining (r : Replay) (rest : Train) : Prop where
  length : r.rlen.toNat = r.ridx.toNat + rest.length
  entries : ∀ i, i < rest.length → Memory.read? r.rbuf (r.ridx.toNat + i) = rest[i]?

/-- The unit has just begun what is left of the train, after the events `before`: the mark of a pair, or the gap. -/
inductive Begun (before : List TraceEvent) (s : State) : Train → Prop where
  | mark {on off : Sample} {rest : Train} (hrest : Remaining s.rep (on :: off :: rest)) (hstate : s.rep.rstate = .on)
      (htrace : s.trace = before ++ [.carrierOn, .arm (on.toNat * s.cfg.tickUnits)]) :
      Begun before s (on :: off :: rest)
  | gap {rest : Train} (hshort : rest.length < 2) (hstate : s.rep.rstate = .gap) (hquiet : s.rep.carrierEn = false)
      (htrace : s.trace = before ++ [.arm s.cfg.gapUnits]) : Begun before s rest

/-- The first sample of what is left stands at `ridx`, the second behind it. -/
theorem Remaining.pair {r : Replay} {on off : Sample} {rest : Train} (h : Remaining r (on :: off :: rest)) :
    Memory.read? r.rbuf r.ridx.toNat = some on ∧ Memory.read? r.rbuf (r.ridx.toNat + 1) = some off :=
  ⟨h.entries 0 (by simp), h.entries 1 (by simp)⟩

/-- Moving past a pair leaves the rest, and the pointer does not wrap. -/
theorem Remaining.tail {r : Replay} {on off : Sample} {rest : Train} (h : Remaining r (on :: off :: rest)) :
    Remaining { r with ridx := r.ridx + 2 } rest := by
  obtain ⟨hlen, hentries⟩ := h
  rw [List.length_cons, List.length_cons] at hlen hentries
  have hridx : (r.ridx + 2).toNat = r.ridx.toNat + 2 := ridx_add_two (n := r.rlen) (by omega)
  refine ⟨?_, fun i hi => ?_⟩
  · rw [hridx, hlen]
    omega
  · rw [hridx, Nat.add_assoc, Nat.add_comm 2 i]
    exact hentries (i + 2) (by omega)

/-- A pair is left exactly when its off-duration is within the buffer's length. -/
theorem Remaining.pair_iff {r : Replay} {rest : Train} (h : Remaining r rest) :
    r.ridx.toNat + 1 < r.rlen.toNat ↔ 2 ≤ rest.length := by
  have hlen := h.length
  omega

/-- Beginning the pair at the pointer. -/
theorem Remaining.begun_mark {s : State} {r : Replay} {rest : Train} (h : Remaining r rest)
    (hbuf : r.rbuf = s.rep.rbuf) (hpair : 2 ≤ rest.length) :
    Begun s.trace (s.replayed { r with carrierEn := true, rstate := .on }
      [.carrierOn, .arm (duration s.cfg (replaySample s r.ridx.toNat))] 0) rest := by
  match rest with
  | [] | [_] => simp at hpair
  | on :: off :: rest =>
    refine .mark ⟨h.length, h.entries⟩ rfl ?_
    rw [replayed_trace, duration_replaySample (hbuf ▸ h.pair.1), replayed_cfg]

/-- REP.START begins the whole train. -/
theorem begun_of_repStart {s : State} {train : Train} (hidle : s.rep.rstate = .idle) (hovf : s.rep.pushOvf = false)
    (hquiet : s.rep.carrierEn = false) (htrain : Remaining { s.rep with ridx := 0 } train) (hne : train ≠ []) :
    ∃ t, exec .repStart s = .next t ∧ t.cfg = s.cfg ∧ Begun s.trace t train := by
  have hlen : s.rep.rlen.toNat = train.length := by simpa using htrain.length
  by_cases hpair : 2 ≤ train.length
  · exact ⟨_, exec_repStart_pair hidle hovf (hlen ▸ hpair), rfl, htrain.begun_mark rfl hpair⟩
  · have hpos : 0 < train.length := List.length_pos_iff.2 hne
    have hlone : s.rep.rlen = 1 := by bv_omega
    exact ⟨_, exec_repStart_lone hidle hovf hlone, rfl, .gap (Nat.not_le.1 hpair) rfl hquiet rfl⟩

/-- The expiry that ends a pair begins what is left behind it. -/
theorem begun_of_repFire_off {s : State} {rest : Train} (hoff : s.rep.rstate = .off) (hquiet : s.rep.carrierEn = false)
    (hrest : Remaining { s.rep with ridx := s.rep.ridx + 2 } rest) :
    ∃ t, exec .repFire s = .next t ∧ t.cfg = s.cfg ∧ Begun s.trace t rest := by
  by_cases hpair : 2 ≤ rest.length
  · exact ⟨_, exec_repFire_more hoff (hrest.pair_iff.2 hpair), rfl, hrest.begun_mark rfl hpair⟩
  · exact ⟨_, exec_repFire_last hoff (mt hrest.pair_iff.1 hpair), rfl, .gap (Nat.not_le.1 hpair) rfl hquiet rfl⟩

/-- The two expiries of a pair end its mark and begin what is left behind the pair. -/
theorem Begun.pair {before : List TraceEvent} {s : State} {on off : Sample} {rest : Train}
    (h : Begun before s (on :: off :: rest)) :
    ∃ t u, exec .repFire s = .next t ∧ t.rep.rstate = .off ∧ exec .repFire t = .next u ∧ u.cfg = s.cfg ∧
      Begun (before ++ [.carrierOn, .arm (on.toNat * s.cfg.tickUnits),
        .carrierOff, .arm (off.toNat * s.cfg.tickUnits)]) u rest := by
  cases h with
  | gap hshort => simp at hshort
  | mark hrest hstate htrace =>
    have hfire := exec_repFire_on hstate
    rw [duration_replaySample hrest.pair.2] at hfire
    obtain ⟨u, hu, hcfg, hbegun⟩ := begun_of_repFire_off
      (s := s.replayed { s.rep with carrierEn := false, rstate := .off } _ 0) rfl rfl
      ⟨hrest.tail.length, hrest.tail.entries⟩
    rw [replayed_trace, htrace, List.append_assoc] at hbegun
    exact ⟨_, u, hfire, rfl, hu, hcfg, hbegun⟩

/-- The train is not over before the expiry of the gap. -/
theorem Begun.busy {before : List TraceEvent} {s : State} {rest : Train} (h : Begun before s rest) :
    s.rep.rstate ≠ .idle := by
  cases h with
  | mark _ hstate => simp [hstate]
  | gap _ hstate => simp [hstate]

theorem execAll_replicate_succ {i : Instr} {s t : State} (h : exec i s = .next t) (k : Nat) :
    execAll (List.replicate (k + 1) i) s = execAll (List.replicate k i) t := by
  rw [List.replicate_succ, execAll_cons h]

/-- The expiries of a pair come before those of what is left behind it. -/
theorem expiries_cons (on off : Sample) (rest : Train) :
    2 * ((on :: off :: rest).length / 2) + 1 = 2 * (rest.length / 2) + 1 + 1 + 1 := by
  rw [List.length_cons, List.length_cons]
  omega

/-- Until the expiry of the gap the unit is busy. -/
theorem Begun.busy_below {before : List TraceEvent} {s : State} {rest : Train} (h : Begun before s rest) {k : Nat}
    (hk : k < 2 * (rest.length / 2) + 1) :
    ∃ t, execAll (List.replicate k .repFire) s = .next t ∧ t.rep.rstate ≠ .idle := by
  induction rest using emission.induct generalizing before s k with
  | case1 on off rest ih =>
    obtain ⟨t, u, ht, hoff, hu, -, hbegun⟩ := h.pair
    match k with
    | 0 => exact ⟨s, rfl, h.busy⟩
    | 1 => exact ⟨t, execAll_replicate_succ ht 0, by simp [hoff]⟩
    | k + 2 =>
      rw [execAll_replicate_succ ht, execAll_replicate_succ hu]
      rw [expiries_cons] at hk
      exact ih hbegun (by omega)
  | case2 rest hnot =>
    cases h with
    | mark => exact absurd rfl (hnot _ _ _)
    | gap hshort hstate =>
      obtain rfl : k = 0 := by omega
      exact ⟨s, rfl, by simp [hstate]⟩

theorem emission_of_short (c : Config) {rest : Train} (h : rest.length < 2) : emission c rest = [.arm c.gapUnits] := by
  match rest with
  | [] | [_] => rfl
  | _ :: _ :: _ => simp at h

/-- The expiry of the gap completes the train, and every pair has been emitted. -/
theorem Begun.completes {before : List TraceEvent} {s : State} {rest : Train} (h : Begun before s rest) :
    ∃ t, execAll (List.replicate (2 * (rest.length / 2) + 1) .repFire) s = .next t ∧ t.rep.rstate = .idle ∧
      t.rep.lastResult = .completed ∧ t.rep.carrierEn = false ∧ t.trace = before ++ emission s.cfg rest := by
  induction rest using emission.induct generalizing before s with
  | case1 on off rest ih =>
    obtain ⟨t, u, ht, -, hu, hcfg, hbegun⟩ := h.pair
    obtain ⟨v, hv, hidle, hresult, hquiet, htrace⟩ := ih hbegun
    refine ⟨v, ?_, hidle, hresult, hquiet, ?_⟩
    · rw [expiries_cons, execAll_replicate_succ ht, execAll_replicate_succ hu, hv]
    · rw [htrace, hcfg, List.append_assoc]
      rfl
  | case2 rest hnot =>
    cases h with
    | mark => exact absurd rfl (hnot _ _ _)
    | gap hshort hstate hquiet htrace =>
      rw [Nat.div_eq_of_lt hshort, emission_of_short _ hshort, ← htrace]
      exact ⟨_, execAll_replicate_succ (exec_repFire_gap hstate) 0, rfl, rfl, hquiet, List.append_nil _⟩

/-- Settles O46: REP.START begins the train, and what has been begun completes after two expiries for each pair and the
gap's. -/
theorem emissionLaw : Obligations.EmissionLaw := by
  intro s train _ hidle hovf hquiet hne hlen hentries
  obtain ⟨t, ht, hcfg, hbegun⟩ := begun_of_repStart hidle hovf hquiet ⟨by simpa using hlen, by simpa using hentries⟩ hne
  simp only [execAll_cons ht, ← hcfg]
  exact ⟨fun k hk => hbegun.busy_below hk, hbegun.completes⟩

/-! ## The odd tail law (R178) -/

/-- The state with another replay buffer. -/
def State.withRbuf (s : State) (m : Memory) : State := { s with rep := { s.rep with rbuf := m } }

/-- `m` holds the entries of the replay buffer but for an odd tail, and a pair under way ends before the tail. -/
structure AgreesBelowTail (s : State) (m : Memory) : Prop where
  odd : s.rep.rlen.toNat % 2 = 1
  agree : ∀ i, i ≠ s.rep.rlen.toNat - 1 → Memory.read? m i = Memory.read? s.rep.rbuf i
  pair : s.rep.rstate = .on ∨ s.rep.rstate = .off → s.rep.ridx.toNat % 2 = 0 ∧ s.rep.ridx.toNat + 1 < s.rep.rlen.toNat

/-- Off the tail, the two buffers give the same sample. -/
theorem AgreesBelowTail.replaySample_eq {s : State} {m : Memory} (h : AgreesBelowTail s m) {i : Nat}
    (hi : i ≠ s.rep.rlen.toNat - 1) : replaySample (s.withRbuf m) i = replaySample s i :=
  memRead_congr (h.agree i hi)

/-- The operation does the same on the two buffers and reads no odd tail. -/
def BlindToTail (i : Instr) (s : State) (m : Memory) : Prop :=
  ∃ t, exec i s = .next t ∧ exec i (s.withRbuf m) = .next (t.withRbuf m) ∧ AgreesBelowTail t m

theorem AgreesBelowTail.repStart {s : State} {m : Memory} (h : AgreesBelowTail s m) : BlindToTail .repStart s m := by
  obtain hblocked | ⟨hidle, hovf, hpair⟩ | ⟨hidle, hovf, hlone⟩ := repStart_cases s.rep
  · exact ⟨_, exec_repStart_ignored hblocked, exec_repStart_ignored (s := s.withRbuf m) hblocked,
      h.odd, h.agree, h.pair⟩
  · refine ⟨_, exec_repStart_pair hidle hovf hpair, ?_, h.odd, h.agree, fun _ => ⟨rfl, hpair⟩⟩
    rw [exec_repStart_pair (s := s.withRbuf m) hidle hovf hpair, h.replaySample_eq (by omega)]
    rfl
  · exact ⟨_, exec_repStart_lone hidle hovf hlone, exec_repStart_lone (s := s.withRbuf m) hidle hovf hlone,
      h.odd, h.agree, by simp⟩

theorem AgreesBelowTail.repFire {s : State} {m : Memory} (h : AgreesBelowTail s m) : BlindToTail .repFire s m := by
  cases hstate : s.rep.rstate with
  | idle => exact ⟨_, exec_repFire_idle hstate, exec_repFire_idle (s := s.withRbuf m) hstate, h.odd, h.agree, h.pair⟩
  | on =>
    obtain ⟨heven, hleft⟩ := h.pair (.inl hstate)
    have hodd := h.odd
    refine ⟨_, exec_repFire_on hstate, ?_, h.odd, h.agree, fun _ => ⟨heven, hleft⟩⟩
    rw [exec_repFire_on (s := s.withRbuf m) hstate, h.replaySample_eq (by simp [State.withRbuf]; omega)]
    rfl
  | off =>
    obtain ⟨heven, hleft⟩ := h.pair (.inr hstate)
    by_cases hmore : (s.rep.ridx + 2).toNat + 1 < s.rep.rlen.toNat
    · have hridx := ridx_add_two hleft
      refine ⟨_, exec_repFire_more hstate hmore, ?_, h.odd, h.agree, fun _ => ⟨?_, hmore⟩⟩
      · rw [exec_repFire_more (s := s.withRbuf m) hstate hmore, h.replaySample_eq (by simp only [State.withRbuf]; omega)]
        rfl
      · simp only [replayed_rep]
        omega
    · exact ⟨_, exec_repFire_last hstate hmore, exec_repFire_last (s := s.withRbuf m) hstate hmore, h.odd, h.agree,
        by simp⟩
  | gap => exact ⟨_, exec_repFire_gap hstate, exec_repFire_gap (s := s.withRbuf m) hstate, h.odd, h.agree, by simp⟩

theorem AgreesBelowTail.fires {m : Memory} (k : Nat) : ∀ {s : State}, AgreesBelowTail s m →
    ∃ t, execAll (List.replicate k .repFire) s = .next t ∧
      execAll (List.replicate k .repFire) (s.withRbuf m) = .next (t.withRbuf m) := by
  induction k with
  | zero => exact fun {s} _ => ⟨s, rfl, rfl⟩
  | succ k ih =>
    intro s h
    obtain ⟨t, ht, htm, hagree⟩ := h.repFire
    rw [execAll_replicate_succ ht, execAll_replicate_succ htm]
    exact ih hagree

/-- Settles O47: the start and every expiry do the same on the two buffers, because neither reads an odd tail. -/
theorem oddTailIsNeverEmitted : Obligations.OddTailIsNeverEmitted := by
  intro s m k _ hidle hodd hagree
  have hs : AgreesBelowTail s m := ⟨hodd, hagree, by simp [hidle]⟩
  obtain ⟨t, ht, htm, hstarted⟩ := hs.repStart
  obtain ⟨u, hu, hum⟩ := hstarted.fires k
  exact ⟨u, u.withRbuf m, (execAll_cons ht _).trans hu, (execAll_cons htm _).trans hum, rfl⟩

/-! ## The gap law (R179) -/

/-- What a step can do to the replay unit: the reset event, or what an operation can do to the same unit. -/
theorem step_replayMove {s t : State} (h : step s = .next t) : t.rep = Replay.reset ∧ t.trace = [] ∨
    ∃ u es, SameBlock s u ∧ ReplayMove u t.rep es ∧ t.trace = u.trace ++ es := by
  obtain ⟨-, ⟨-, hreset⟩ | ⟨-, hk | ⟨i, u, v, hu, hi, hv⟩⟩⟩ := step_block h
  · exact .inl ⟨hreset.rep, hreset.trace⟩
  · exact .inr ⟨s, [], .refl s, hk.rep ▸ .kept, by simp [hk.trace]⟩
  · obtain ⟨-, es, hmove, htrace⟩ := exec_moves hi
    exact .inr ⟨u, es, hu, hv.rep ▸ hmove, hv.trace.trans htrace⟩

/-- Only the expiry of the gap ends a train as COMPLETED. -/
theorem ReplayMove.completed_from_gap {s : State} {r : Replay} {es : List TraceEvent} (h : ReplayMove s r es)
    (hbusy : s.rep.rstate ≠ .idle) (hidle : r.rstate = .idle) (hresult : r.lastResult = .completed) :
    s.rep.rstate = .gap := by
  cases h with
  | completed hgap => exact hgap
  | aborted => cases hresult
  | kept | powered | cleared | overflowed | pushed => exact absurd hidle hbusy
  | pairStarted | gapStarted | markEnded | nextPair | lastPair => cases hidle

/-- GAP is entered by arming the gap and nothing else. -/
theorem ReplayMove.arms_gap {s : State} {r : Replay} {es : List TraceEvent} (h : ReplayMove s r es)
    (hnot : s.rep.rstate ≠ .gap) (hgap : r.rstate = .gap) : es = [.arm s.cfg.gapUnits] := by
  cases h with
  | gapStarted | lastPair => rfl
  | kept | powered | cleared | overflowed | pushed => exact absurd hgap hnot
  | pairStarted | markEnded | nextPair | completed | aborted => cases hgap

/-- From GAP no carrier is enabled, and the unit stays or goes to IDLE. -/
theorem ReplayMove.quiet_from_gap {s : State} {r : Replay} {es : List TraceEvent} (h : ReplayMove s r es)
    (hgap : s.rep.rstate = .gap) : es.count .carrierOn = 0 ∧ (r = s.rep ∨ r.rstate = .idle) := by
  cases h with
  | kept | powered => exact ⟨rfl, .inl rfl⟩
  | completed => exact ⟨rfl, .inr rfl⟩
  | aborted => exact ⟨by split <;> rfl, .inr rfl⟩
  | cleared hstate | overflowed hstate | pushed _ hstate | pairStarted hstate | gapStarted hstate | markEnded hstate
  | nextPair hstate | lastPair hstate => cases hgap.symm.trans hstate

/-- Settles O48: the reset event ends in IDLE with no result, and each thing an operation can do to the unit waits out the
gap. -/
theorem completedTrainsWaitOutTheGap : Obligations.CompletedTrainsWaitOutTheGap := by
  intro s t h
  obtain ⟨hrep, htrace⟩ | ⟨u, es, hu, hmove, htrace⟩ := step_replayMove h
  · simp [hrep, htrace, Replay.reset]
  · rw [htrace, ← hu.rep, ← hu.cfg, ← hu.trace]
    refine ⟨hmove.completed_from_gap, fun hnot hgap => by rw [hmove.arms_gap hnot hgap], fun hgap => ?_⟩
    obtain ⟨hquiet, hstays⟩ := hmove.quiet_from_gap hgap
    exact ⟨by rw [List.count_append, hquiet, Nat.add_zero], hstays⟩

end Sys2Proof.Machine
end

section
/-! PROOF. The system operations (43_system_and_text.md R210, R211). -/

namespace Sys2Proof.Machine

/-- Settles O29: NOP's word decodes to it, any agent may issue it, and it only answers. -/
theorem nopChangesNothing : Obligations.NopChangesNothing :=
  ⟨decode_of_encode_eq rfl, fun _ => rfl, fun s => ⟨s.respond 0, rfl, s.respond_eq 0⟩⟩

/-- Settles O30: both words are those of PWR.SET, which writes the line and appends the event at either level. -/
theorem pwrSetDrivesTheLine : Obligations.PwrSetDrivesTheLine :=
  ⟨issued_of_encode_eq rfl fun _ => rfl, issued_of_encode_eq rfl fun _ => rfl, fun s lvl =>
    ⟨((s.setPwr lvl).emit (.power lvl)).respond 0, rfl, State.respond_eq _ _⟩⟩

end Sys2Proof.Machine
end

section
/-! PROOF. The line framing of the text port (43_system_and_text.md R214, R215). -/

namespace Sys2Proof.Machine

/-! ## STRIP (R215) -/

theorem isBlank_iff (c : BitVec 8) : isBlank c = true ↔ c ∈ ([0x20, 0x09, 0x0A, 0x0B, 0x0C, 0x0D] : Text) := by
  simp [isBlank, or_assoc]

theorem strip_of_blank {l : Text} (h : ∀ c ∈ l, isBlank c = true) : strip l = [] := by
  rw [strip, List.dropWhile_eq_nil_iff.2 h]
  rfl

/-- Dropping blanks stops at a text that does not begin with one. -/
theorem dropWhile_isBlank_append {before l : Text} (hbefore : ∀ c ∈ before, isBlank c = true)
    (hl : ∀ c ∈ l.head?, isBlank c = false) : (before ++ l).dropWhile isBlank = l := by
  rw [List.dropWhile_append_of_pos hbefore]
  cases l with
  | nil => rfl
  | cons c cs => exact List.dropWhile_cons_of_neg (by simp [hl c rfl])

theorem strip_append_append {before core after : Text} (hbefore : ∀ c ∈ before, isBlank c = true)
    (hafter : ∀ c ∈ after, isBlank c = true) (hhead : ∀ c ∈ core.head?, isBlank c = false)
    (hlast : ∀ c ∈ core.getLast?, isBlank c = false) (hne : core ≠ []) : strip (before ++ core ++ after) = core := by
  have hleading : (before ++ core ++ after).dropWhile isBlank = core ++ after := by
    rw [List.append_assoc]
    exact dropWhile_isBlank_append hbefore (by rwa [List.head?_append_of_ne_nil _ hne])
  have htrailing : (core ++ after).reverse.dropWhile isBlank = core.reverse := by
    rw [List.reverse_append]
    exact dropWhile_isBlank_append (by simpa using hafter) (by rwa [List.head?_reverse])
  rw [strip, hleading, htrailing, List.reverse_reverse]

/-- Settles O53: dropping blanks at one end, then at the other, leaves what neither begins nor ends with one. -/
theorem stripRemovesSurroundingBlanks : Obligations.StripRemovesSurroundingBlanks :=
  ⟨isBlank_iff, fun _ => strip_of_blank, fun _ _ _ => strip_append_append⟩

/-! ## Lines (R214) -/

theorem takeLine_cons {c : BitVec 8} (h : lf ≠ c) (cs : Text) :
    takeLine (c :: cs) = (c :: (takeLine cs).1, (takeLine cs).2) := if_neg h.symm

theorem takeLine_append_lf {l : Text} (h : lf ∉ l) (rest : Text) : takeLine (l ++ lf :: rest) = (l, rest) := by
  induction l with
  | nil => rfl
  | cons c cs ih =>
    obtain ⟨hc, hcs⟩ := List.ne_and_not_mem_of_not_mem_cons h
    rw [List.cons_append, takeLine_cons hc, ih hcs]

theorem takeLine_last {l : Text} (h : lf ∉ l) : takeLine l = (l, []) := by
  induction l with
  | nil => rfl
  | cons c cs ih =>
    obtain ⟨hc, hcs⟩ := List.ne_and_not_mem_of_not_mem_cons h
    rw [takeLine_cons hc, ih hcs]

/-- Settles O54, by induction on the line. -/
theorem linesEndAtLineFeed : Obligations.LinesEndAtLineFeed :=
  fun _ rest h => ⟨takeLine_append_lf h rest, takeLine_last h⟩

end Sys2Proof.Machine
end

section
/-! PROOF. A turn of either session as one operation of the HOST's (43_system_and_text.md R212, R214), and turns one after
another. -/

namespace Sys2Proof.Machine

theorem sameBlock_setStream (s : State) (ds : List Delivery) : SameBlock s (s.setStream ds) := ⟨rfl, rfl, rfl, rfl, rfl⟩

theorem sameBlock_respond (s : State) (v : Response) : SameBlock s (s.respond v) := ⟨rfl, rfl, rfl, rfl, rfl⟩

/-- A turn that delivers an operation of the HOST's moves the session on from what the operation answers. -/
theorem afterwards_hostIssues {i : Instr} {s t : State} (hi : i.mayBeIssuedBy .host = true) (h : exec i s = .next t)
    (f : State → State) : afterwards (hostIssues i s) f = .next (f t) := by
  rw [hostIssues, performWord_eq_exec (encodedOperationDecodesBack i) hi, h]
  rfl

/-- A run goes on from what its first delivery leaves. -/
theorem run_of_deliver {s t : State} {d : Delivery} {ds : List Delivery} (hc : configOk s.cfg = true)
    (hs : s.port.stream = d :: ds) (h : deliver d (s.setStream ds) = .next t) (n : Nat) :
    Host.Core.run core (n + 1) s = Host.Core.run core n t := by
  have hstep : core.step s = .next t := (step_eq_deliver hc hs).trans h
  simp only [Host.Core.run, hstep]

end Sys2Proof.Machine
end

section
/-! PROOF. REPLAY_SESSION (43_system_and_text.md R214, R216 to R218), an equation for each kind of turn. -/

namespace Sys2Proof.Machine

/-! ## Taking a line (R214, R216) -/

theorem replayTurn_nextLine {s : State} {l rest : Text} (hsession : s.port.replaySession = .nextLine)
    (hne : s.port.input ≠ []) (hline : takeLine s.port.input = (l, rest)) :
    replayTurn s = .next (replayLine l (s.setInput rest)) := by
  obtain ⟨c, cs, hinput⟩ := List.exists_cons_of_ne_nil hne
  rw [hinput] at hline
  simp only [replayTurn, hsession, hinput, hline]

theorem replayTurn_endOfInput {s : State} (hsession : s.port.replaySession = .nextLine) (hinput : s.port.input = []) :
    replayTurn s = .next (s.setReplaySession .off) := by
  simp only [replayTurn, hsession, hinput]

theorem replayLine_blank {l : Text} (h : strip l = []) (s : State) : replayLine l s = s := if_pos h

theorem replayLine_error {l : Text} {kind : CodecError} (hne : strip l ≠ [])
    (h : decodeText (strip l) = .error kind) (s : State) : replayLine l s = s.report (.lineRejected kind) := by
  simp only [replayLine, if_neg hne, h]

theorem strip_ne_nil_of_decodeText {l : Text} {train : Train} (h : decodeText (strip l) = .ok train) :
    strip l ≠ [] := by
  intro hnil
  rw [decodeText_malformed (.inl hnil)] at h
  cases h

theorem replayLine_tooLong {l : Text} {train : Train} {s : State} (h : decodeText (strip l) = .ok train)
    (hlong : s.cfg.rbufDepth < train.length) : replayLine l s = s.report .trainTooLong := by
  simp only [replayLine, if_neg (strip_ne_nil_of_decodeText h), h, if_pos hlong]

theorem replayLine_fits {l : Text} {train : Train} {s : State} (h : decodeText (strip l) = .ok train)
    (hfits : train.length ≤ s.cfg.rbufDepth) : replayLine l s = s.setReplaySession (.awaitIdle train) := by
  simp only [replayLine, if_neg (strip_ne_nil_of_decodeText h), h, if_neg (Nat.not_lt.2 hfits)]

/-- Settles O55: the turn takes the line, and what it does with it is by what the stripped line decodes to. -/
theorem badLinesAreSkipped : Obligations.BadLinesAreSkipped := by
  refine ⟨fun s l rest ds hc hs hsession hlf hinput => ?_, fun s ds hc hs hsession hinput =>
    (step_eq_deliver hc hs).trans (replayTurn_endOfInput hsession hinput)⟩
  have htake : s.port.input ≠ [] ∧ takeLine s.port.input = (l, rest) := by
    obtain h | ⟨hne, rfl, h⟩ := hinput
    · rw [h]
      exact ⟨by simp, takeLine_append_lf hlf rest⟩
    · rw [h]
      exact ⟨hne, takeLine_last hlf⟩
  have hstep : step s = .next (replayLine l ((s.setStream ds).setInput rest)) :=
    (step_eq_deliver hc hs).trans (replayTurn_nextLine hsession htake.1 htake.2)
  exact ⟨fun hblank => hstep.trans (congrArg _ (replayLine_blank hblank _)),
    fun kind hline herror => hstep.trans (congrArg _ (replayLine_error hline herror _)),
    fun train hok hlong => hstep.trans (congrArg _ (replayLine_tooLong hok hlong)),
    fun train hok hfits => hstep.trans (congrArg _ (replayLine_fits hok hfits))⟩

/-! ## Polling (R214, R218) -/

theorem replayTurn_awaitIdle {s : State} {train : Train} (hsession : s.port.replaySession = .awaitIdle train) :
    replayTurn s = .next (if s.rep.rstate = .idle then (s.respond (repStatus s)).setReplaySession (.clear train)
      else s.respond (repStatus s)) := by
  simp only [replayTurn, hsession]
  rw [afterwards_hostIssues (t := s.respond (repStatus s)) rfl rfl]
  simp only [State.lastResponse_respond, statusRState_idle]

theorem replayTurn_awaitEnd {s : State} (hsession : s.port.replaySession = .awaitEnd) :
    replayTurn s = .next (replayPolled (s.respond (repStatus s))) := by
  simp only [replayTurn, hsession]
  exact afterwards_hostIssues rfl rfl _

theorem replayPolled_respond (s : State) : replayPolled (s.respond (repStatus s)) =
    if s.rep.rstate = .idle then
      if s.rep.lastResult = .aborted then ((s.respond (repStatus s)).report .trainAborted).setReplaySession .nextLine
      else (s.respond (repStatus s)).setReplaySession .nextLine
    else s.respond (repStatus s) := by
  simp only [replayPolled, State.lastResponse_respond, statusRState_idle, statusLastResult_aborted]

/-- Settles O56: a poll reads the status word, and moves on from what it says of the unit. -/
theorem replaySessionWaitsForIdle : Obligations.ReplaySessionWaitsForIdle := by
  intro s ds hc hs
  obtain ⟨t, ht⟩ := replayTurn_next (s.setStream ds)
  refine ⟨t, (step_eq_deliver hc hs).trans ht, fun train hsession => ?_, fun hsession => ?_⟩
  · cases ht.symm.trans (replayTurn_awaitIdle (s := s.setStream ds) hsession)
    by_cases hidle : s.rep.rstate = .idle
    · simp only [State.setStream_rep, hidle, if_true]
      exact ⟨⟨rfl, rfl, rfl, rfl, rfl⟩, rfl⟩
    · simp only [State.setStream_rep, hidle, if_false]
      exact ⟨⟨rfl, rfl, rfl, rfl, rfl⟩, hsession⟩
  · cases ht.symm.trans (replayTurn_awaitEnd (s := s.setStream ds) hsession)
    have hblock := (sameBlock_setStream s ds).trans (sameBlock_respond _ (repStatus (s.setStream ds)))
    refine ⟨hblock.trans (replayPolled_sameBlock _), ?_⟩
    rw [replayPolled_respond]
    by_cases hidle : s.rep.rstate = .idle
    · by_cases haborted : s.rep.lastResult = .aborted <;> simp [hidle, haborted]
    · simp [hidle, hsession]

/-! ## Loading the train and starting it (R214, 42_replay.md R170 to R172) -/

/-- The buffer holds exactly the train, and it is not truncated. -/
structure Loaded (r : Replay) (train : Train) : Prop where
  whole : r.pushOvf = false
  length : r.rlen.toNat = train.length
  entries : ∀ i, i < train.length → Memory.read? r.rbuf i = train[i]?

theorem loaded_cleared (r : Replay) : Loaded { r with rlen := 0, pushOvf := false } [] := ⟨rfl, rfl, by simp⟩

theorem Loaded.pushed {r : Replay} {train : Train} (h : Loaded r train) (hroom : train.length < 65535) (v : Sample) :
    Loaded { r with rbuf := Memory.write r.rbuf r.rlen.toNat v, rlen := r.rlen + 1 } (train ++ [v]) where
  whole := h.whole
  length := by
    rw [List.length_append, ← h.length]
    exact toNat_succ (h.length ▸ hroom) le_rfl
  entries i hi := by
    simp only [Memory.read?_write, h.length]
    by_cases hlast : i = train.length
    · simp [hlast]
    · have hlt : i < train.length := by
        rw [List.length_append, List.length_singleton] at hi
        omega
      simp [hlast, h.entries i hlt, List.getElem?_append_left hlt]

/-- The session has started the train it loaded and polls for its end. -/
structure TrainStarted (t : State) (train : Train) : Prop where
  session : t.port.replaySession = .awaitEnd
  busy : t.rep.rstate ≠ .idle
  first : t.rep.ridx = 0
  loaded : Loaded t.rep train

theorem exec_repStart_of_loaded {s : State} {train : Train} (hidle : s.rep.rstate = .idle) (h : Loaded s.rep train)
    (hne : train ≠ []) : ∃ t, exec .repStart s = .next t ∧ TrainStarted (t.setReplaySession .awaitEnd) train := by
  have hpos : 0 < train.length := List.length_pos_iff.2 hne
  have hlen := h.length
  by_cases hpair : 2 ≤ s.rep.rlen.toNat
  · exact ⟨_, exec_repStart_pair hidle h.whole hpair, rfl, nofun, rfl, h.whole, h.length, h.entries⟩
  · have hlone : s.rep.rlen = 1 := by bv_omega
    exact ⟨_, exec_repStart_lone hidle h.whole hlone, rfl, nofun, rfl, h.whole, h.length, h.entries⟩

theorem replayTurn_clear {s t : State} {train : Train} (hsession : s.port.replaySession = .clear train)
    (h : exec .repClear s = .next t) : replayTurn s = .next (replayPush train t) := by
  simp only [replayTurn, hsession]
  exact afterwards_hostIssues rfl h _

theorem replayTurn_push {s t : State} {v : Sample} {rest : Train} (hsession : s.port.replaySession = .push (v :: rest))
    (h : exec (.repPush v) s = .next t) : replayTurn s = .next (replayPush rest t) := by
  simp only [replayTurn, hsession]
  exact afterwards_hostIssues rfl h _

theorem replayTurn_start {s t : State} (hsession : s.port.replaySession = .start)
    (h : exec .repStart s = .next t) : replayTurn s = .next (t.setReplaySession .awaitEnd) := by
  simp only [replayTurn, hsession]
  exact afterwards_hostIssues rfl h _

/-- Part of the train is loaded, and a turn is to come for each sample left and one for REP.START. -/
structure Loading (s : State) (loaded rest : Train) : Prop where
  config : configOk s.cfg = true
  idle : s.rep.rstate = .idle
  held : Loaded s.rep loaded
  fits : (loaded ++ rest).length ≤ s.cfg.rbufDepth
  turns : s.port.stream = List.replicate (rest.length + 1) .replayTurn

theorem Loading.push {s : State} {loaded rest : Train} {v : Sample} (h : Loading s loaded (v :: rest)) :
    ∃ t, Loading t (loaded ++ [v]) rest ∧
      ∀ n, Host.Core.run core (n + 1) (replayPush (v :: rest) s) = Host.Core.run core n (replayPush rest t) := by
  have hdepth := ((configOk_iff s.cfg).1 h.config).rbufDepth
  have hlen : loaded.length + (rest.length + 1) ≤ s.cfg.rbufDepth := by simpa using h.fits
  have hroom : s.rep.rlen.toNat ≠ s.cfg.rbufDepth := by
    rw [h.held.length]
    omega
  have hpush := exec_repPush_room (s := (s.setReplaySession (.push (v :: rest))).setStream
    (List.replicate (rest.length + 1) .replayTurn)) h.idle hroom v
  refine ⟨_, ?_, run_of_deliver (s := s.setReplaySession (.push (v :: rest))) h.config h.turns
    (replayTurn_push rfl hpush)⟩
  exact ⟨h.config, h.idle, h.held.pushed (by omega) v, by simpa using h.fits, rfl⟩

theorem Loading.start {s : State} {loaded : Train} (h : Loading s loaded []) (hne : loaded ≠ []) :
    ∃ t, Host.Core.run core 1 (replayPush [] s) = .next t ∧ TrainStarted t loaded := by
  obtain ⟨t, ht, hstarted⟩ :=
    exec_repStart_of_loaded (s := (s.setReplaySession .start).setStream []) h.idle h.held hne
  exact ⟨_, run_of_deliver (s := s.setReplaySession .start) h.config h.turns (replayTurn_start rfl ht) 0, hstarted⟩

/-- The turns that are left push the rest and start the whole train. -/
theorem Loading.completes {rest : Train} : ∀ {s : State} {loaded : Train}, Loading s loaded rest → loaded ++ rest ≠ [] →
    ∃ t, Host.Core.run core (rest.length + 1) (replayPush rest s) = .next t ∧ TrainStarted t (loaded ++ rest) := by
  induction rest with
  | nil =>
    intro s loaded h hne
    rw [List.append_nil] at hne ⊢
    exact h.start hne
  | cons v rest ih =>
    intro s loaded h _
    obtain ⟨u, hu, hrun⟩ := h.push
    obtain ⟨t, ht, hstarted⟩ := ih hu (by simp)
    exact ⟨t, (hrun _).trans ht, by simpa using hstarted⟩

theorem loading_of_clear {s : State} {train : Train} (hc : configOk s.cfg = true) (hidle : s.rep.rstate = .idle)
    (hfits : train.length ≤ s.cfg.rbufDepth) (hsession : s.port.replaySession = .clear train)
    (hs : s.port.stream = List.replicate (train.length + 2) .replayTurn) :
    ∃ t, Loading t [] train ∧ ∀ n, Host.Core.run core (n + 1) s = Host.Core.run core n (replayPush train t) := by
  have hclear := exec_repClear_idle (s := s.setStream (List.replicate (train.length + 1) .replayTurn)) hidle
  refine ⟨_, ?_, run_of_deliver hc hs (replayTurn_clear hsession hclear)⟩
  exact ⟨hc, hidle, loaded_cleared s.rep, hfits, rfl⟩

/-- Settles O57: REP.CLEAR leaves nothing loaded, and the turns left load the whole train and start it. -/
theorem replaySessionLoadsAndStarts : Obligations.ReplaySessionLoadsAndStarts := by
  intro s train hc hidle hne hfits hsession hs
  obtain ⟨u, hu, hrun⟩ := loading_of_clear hc hidle hfits hsession hs
  obtain ⟨t, ht, hend, hbusy, hfirst, hwhole, hlength, hentries⟩ := hu.completes hne
  exact ⟨t, (hrun _).trans ht, hend, hbusy, hfirst, hwhole, hlength, hentries⟩

end Sys2Proof.Machine
end

section
/-! PROOF. CAPTURE_SESSION (43_system_and_text.md R212, R213), an equation for each kind of turn. -/

namespace Sys2Proof.Machine

/-! ## The turns of the loop -/

theorem captureTurn_off {s : State} (hsession : s.port.captureSession = .off) : captureTurn s = .next s := by
  simp only [captureTurn, hsession]

theorem captureTurn_stops {s : State} (hsession : s.port.captureSession = .loop) (hstop : s.port.stopAsked = true) :
    captureTurn s = .next (s.setCaptureSession .off) := by
  simp only [captureTurn, hsession, hstop, if_true]

theorem captureTurn_arms {s t : State} (hsession : s.port.captureSession = .loop) (hstop : s.port.stopAsked = false)
    (h : exec .capArm s = .next t) : captureTurn s = .next (t.setCaptureSession .poll) := by
  simp only [captureTurn, hsession, hstop, Bool.false_eq_true, if_false]
  exact afterwards_hostIssues rfl h _

theorem captureTurn_polls {s : State} (hsession : s.port.captureSession = .poll) :
    captureTurn s = .next (capturePolled (s.respond (capStatus s))) := by
  simp only [captureTurn, hsession]
  exact afterwards_hostIssues rfl rfl _

theorem captureTurn_readLen {s : State} (hsession : s.port.captureSession = .readLen) :
    captureTurn s = .next (captureRead s.cap.clen.toNat [] (s.respond s.cap.clen)) := by
  simp only [captureTurn, hsession]
  rw [afterwards_hostIssues (t := s.respond s.cap.clen) rfl rfl, State.lastResponse_respond]

/-- A turn that reads a sample, whatever is read. -/
theorem captureTurn_readSamples {s t : State} {n : Nat} {got : Train}
    (hsession : s.port.captureSession = .readSamples n got)
    (h : exec (.capRdsample (BitVec.ofNat 16 got.length)) s = .next t) :
    captureTurn s = .next (captureRead n (got ++ [t.lastResponse]) t) := by
  simp only [captureTurn, hsession]
  exact afterwards_hostIssues rfl h _

/-! ## What a poll finds -/

section
variable {s : State}

theorem capturePolled_done (h : s.cap.cstate = .done) : capturePolled (s.respond (capStatus s)) =
    (s.respond (capStatus s)).setCaptureSession .readLen := by
  simp only [capturePolled, State.lastResponse_respond, (statusCState_done s).2 h, if_true]

theorem capturePolled_aborted (h : s.cap.cstate = .aborted) : capturePolled (s.respond (capStatus s)) =
    if s.cap.abortReason = .cancelled then (s.respond (capStatus s)).setCaptureSession .off
    else ((s.respond (capStatus s)).report .captureCycleFailed).setCaptureSession .loop := by
  simp only [capturePolled, State.lastResponse_respond, statusCState_done, statusCState_aborted, h,
    statusAbortReason_cancelled, reduceCtorEq, if_true, if_false]

theorem capturePolled_cancelled (h : s.cap.cstate = .aborted) (hreason : s.cap.abortReason = .cancelled) :
    capturePolled (s.respond (capStatus s)) = (s.respond (capStatus s)).setCaptureSession .off := by
  rw [capturePolled_aborted h, if_pos hreason]

theorem capturePolled_failed (h : s.cap.cstate = .aborted) (hreason : s.cap.abortReason ≠ .cancelled) :
    capturePolled (s.respond (capStatus s)) =
      ((s.respond (capStatus s)).report .captureCycleFailed).setCaptureSession .loop := by
  rw [capturePolled_aborted h, if_neg hreason]

theorem capturePolled_running (hdone : s.cap.cstate ≠ .done) (haborted : s.cap.cstate ≠ .aborted) :
    capturePolled (s.respond (capStatus s)) = s.respond (capStatus s) := by
  simp only [capturePolled, State.lastResponse_respond, statusCState_done, hdone, statusCState_aborted, haborted,
    if_false]

end

/-! ## Output and diagnostics (R213) -/

/-- At the top of its loop the session neither writes nor reports. -/
theorem captureTurn_loop_text {s t : State} (h : captureTurn s = .next t) (hsession : s.port.captureSession = .loop) :
    t.port.output = s.port.output ∧ t.port.diagnostics = s.port.diagnostics := by
  cases hstop : s.port.stopAsked with
  | true =>
    cases (captureTurn_stops hsession hstop).symm.trans h
    exact ⟨rfl, rfl⟩
  | false =>
    obtain ⟨u, _, hu, -⟩ := exec_next .capArm s
    cases (captureTurn_arms hsession hstop hu).symm.trans h
    simpa using exec_port_text hu

/-- Only the turns that read a completed train write to the output stream. -/
theorem captureTurn_output {s t : State} (h : captureTurn s = .next t) (hlen : s.port.captureSession ≠ .readLen)
    (hsamples : ∀ n got, s.port.captureSession ≠ .readSamples n got) : t.port.output = s.port.output := by
  cases hsession : s.port.captureSession with
  | off =>
    cases (captureTurn_off hsession).symm.trans h
    rfl
  | loop => exact (captureTurn_loop_text h hsession).1
  | poll =>
    cases (captureTurn_polls hsession).symm.trans h
    exact capturePolled_output _
  | readLen => exact absurd hsession hlen
  | readSamples n got => exact absurd hsession (hsamples n got)

/-- Only a poll that finds an abort which is no cancel reports. -/
theorem captureTurn_diagnostics {s t : State} (h : captureTurn s = .next t)
    (hquiet : ¬ (s.port.captureSession = .poll ∧ s.cap.cstate = .aborted ∧ s.cap.abortReason ≠ .cancelled)) :
    t.port.diagnostics = s.port.diagnostics := by
  cases hsession : s.port.captureSession with
  | off =>
    cases (captureTurn_off hsession).symm.trans h
    rfl
  | loop => exact (captureTurn_loop_text h hsession).2
  | poll =>
    cases (captureTurn_polls hsession).symm.trans h
    by_cases haborted : s.cap.cstate = .aborted
    · have hcancelled : s.cap.abortReason = .cancelled := by simpa [hsession, haborted] using hquiet
      rw [capturePolled_cancelled haborted hcancelled]
      rfl
    · by_cases hdone : s.cap.cstate = .done
      · rw [capturePolled_done hdone]
        rfl
      · rw [capturePolled_running hdone haborted]
        rfl
  | readLen =>
    cases (captureTurn_readLen hsession).symm.trans h
    exact captureRead_diagnostics ..
  | readSamples n got =>
    obtain ⟨u, _, hu, -⟩ := exec_next (.capRdsample (BitVec.ofNat 16 got.length)) s
    cases (captureTurn_readSamples hsession hu).symm.trans h
    exact (captureRead_diagnostics ..).trans (exec_port_text hu).2

/-! ## The statement of the loop -/

/-- CAP.ARM does the same to the block whatever is still to be delivered. -/
theorem exec_capArm_setStream (s : State) (ds : List Delivery) :
    ∃ u v, exec .capArm s = .next u ∧ exec .capArm (s.setStream ds) = .next v ∧ SameBlock u v := by
  obtain ⟨c, r, n, hexec⟩ := exec_of_capture_unit (i := .capArm) rfl s.cfg s.cap
  exact ⟨_, _, hexec s rfl rfl, hexec (s.setStream ds) rfl rfl, rfl, rfl, rfl, rfl, rfl⟩

/-- Settles O58: each clause is the equation of one kind of turn. -/
theorem captureSessionFollowsTheStatus : Obligations.CaptureSessionFollowsTheStatus := by
  intro s ds hc hs
  obtain ⟨t, ht⟩ := captureTurn_next (s.setStream ds)
  refine ⟨t, (step_eq_deliver hc hs).trans ht, fun ⟨hlen, hsamples⟩ =>
    captureTurn_output (s := s.setStream ds) ht hlen hsamples, captureTurn_diagnostics (s := s.setStream ds) ht,
    fun hsession hstop => ?_, fun hsession hstop => ?_, fun hsession => ?_⟩
  · cases ht.symm.trans (captureTurn_stops (s := s.setStream ds) hsession hstop)
    exact ⟨⟨rfl, rfl, rfl, rfl, rfl⟩, rfl⟩
  · obtain ⟨u, v, hu, hv, huv⟩ := exec_capArm_setStream s ds
    cases ht.symm.trans (captureTurn_arms (s := s.setStream ds) hsession hstop hv)
    exact ⟨rfl, u, hu, huv.trans ⟨rfl, rfl, rfl, rfl, rfl⟩⟩
  · cases ht.symm.trans (captureTurn_polls (s := s.setStream ds) hsession)
    have hblock := (sameBlock_setStream s ds).trans (sameBlock_respond _ (capStatus (s.setStream ds)))
    refine ⟨hblock.trans (capturePolled_sameBlock _), fun hdone => ?_, fun haborted hcancelled => ?_,
      fun haborted hfailed => ?_, fun hdone haborted => ?_⟩
    · rw [capturePolled_done (s := s.setStream ds) hdone]
      rfl
    · rw [capturePolled_cancelled (s := s.setStream ds) haborted hcancelled]
      rfl
    · rw [capturePolled_failed (s := s.setStream ds) haborted hfailed]
      exact ⟨rfl, rfl⟩
    · rw [capturePolled_running (s := s.setStream ds) hdone haborted]
      exact hsession

/-! ## Reading the completed train and writing it (R212, R213) -/

/-- The block is as it was, the train's text has been written, nothing reported, and the session is back at the top of its
loop. -/
structure TrainWritten (s t : State) : Prop where
  block : SameBlock s t
  session : t.port.captureSession = .loop
  diagnostics : t.port.diagnostics = s.port.diagnostics
  output : t.port.output = s.port.output ++ captureOutput s.capturedTrain

/-- The block is as it was, and nothing was written or reported. -/
structure Silent (s u : State) : Prop where
  block : SameBlock s u
  output : u.port.output = s.port.output
  diagnostics : u.port.diagnostics = s.port.diagnostics

theorem TrainWritten.of_silent {s u t : State} (h : TrainWritten u t) (hsilent : Silent s u) : TrainWritten s t where
  block := hsilent.block.trans h.block
  session := h.session
  diagnostics := h.diagnostics.trans hsilent.diagnostics
  output := by rw [h.output, hsilent.output, capturedTrain_of_cap hsilent.block.cap]

theorem captureRead_more {n : Nat} {got : Train} (h : got.length < n) (s : State) :
    captureRead n got s = s.setCaptureSession (.readSamples n got) := if_pos h

theorem captureRead_all {n : Nat} {got : Train} (h : got.length = n) (s : State) :
    captureRead n got s = (s.writeOut (captureOutput got)).setCaptureSession .loop := if_neg h.not_lt

theorem exec_capRdsample_captured {s : State} {k : Nat} (h : k < s.cap.clen.toNat) :
    exec (.capRdsample (BitVec.ofNat 16 k)) s = .next (s.respond (s.captured k)) := by
  have hidx : (BitVec.ofNat 16 k).toNat = k := by
    rw [BitVec.toNat_ofNat]
    exact Nat.mod_eq_of_lt (h.trans s.cap.clen.isLt)
  have hread := execCapRdsample_below (s := s) (idx := BitVec.ofNat 16 k) (by rwa [hidx])
  rwa [hidx] at hread

theorem captureTurn_readSample {s : State} {n : Nat} {got : Train}
    (hsession : s.port.captureSession = .readSamples n got) (hmore : got.length < s.cap.clen.toNat) :
    captureTurn s =
      .next (captureRead n (got ++ [s.captured got.length]) (s.respond (s.captured got.length))) := by
  rw [captureTurn_readSamples hsession (exec_capRdsample_captured hmore), State.lastResponse_respond]

/-- The first `m` samples of the train. -/
def State.firstSamples (s : State) (m : Nat) : Train := (List.range m).map s.captured

@[simp] theorem length_firstSamples (s : State) (m : Nat) : (s.firstSamples m).length = m := by
  simp [State.firstSamples]

theorem firstSamples_succ (s : State) (m : Nat) : s.firstSamples (m + 1) = s.firstSamples m ++ [s.captured m] := by
  simp [State.firstSamples, List.range_succ]

theorem firstSamples_clen (s : State) : s.firstSamples s.cap.clen.toNat = s.capturedTrain := rfl

/-- The session with the first `m` samples read. -/
def State.withRead (s : State) (m : Nat) : State := captureRead s.cap.clen.toNat (s.firstSamples m) s

theorem trainWritten_withRead_clen (s : State) : TrainWritten s (s.withRead s.cap.clen.toNat) := by
  rw [State.withRead, captureRead_all (length_firstSamples s _), firstSamples_clen]
  exact ⟨⟨rfl, rfl, rfl, rfl, rfl⟩, rfl, rfl, rfl⟩

/-- The session about to read the sample at index `m`. -/
def State.awaitingSample (s : State) (m : Nat) : State :=
  s.setCaptureSession (.readSamples s.cap.clen.toNat (s.firstSamples m))

theorem withRead_of_lt {s : State} {m : Nat} (h : m < s.cap.clen.toNat) : s.withRead m = s.awaitingSample m :=
  captureRead_more (by rwa [length_firstSamples]) s

/-- The turn that reads the next sample. -/
theorem run_withRead_succ {s : State} {m : Nat} {ds : List Delivery} (hc : configOk s.cfg = true)
    (hmore : m < s.cap.clen.toNat) (hs : s.port.stream = .captureTurn :: ds) :
    ∃ u, Silent s u ∧ u.port.stream = ds ∧
      ∀ n, Host.Core.run core (n + 1) (s.withRead m) = Host.Core.run core n (u.withRead (m + 1)) := by
  have hlen := length_firstSamples s m
  have hturn := captureTurn_readSample (s := (s.awaitingSample m).setStream ds) (got := s.firstSamples m) rfl
    (hlen.symm ▸ hmore)
  rw [hlen] at hturn
  refine ⟨((s.awaitingSample m).setStream ds).respond (s.captured m), ⟨⟨rfl, rfl, rfl, rfl, rfl⟩, rfl, rfl⟩, rfl,
    fun n => ?_⟩
  rw [withRead_of_lt hmore, State.withRead, firstSamples_succ]
  exact run_of_deliver (s := s.awaitingSample m) hc hs hturn n

/-- With the first `m` samples read, a turn for each one left reads it, and the last writes the train. -/
theorem run_withRead {k : Nat} : ∀ {s : State} {m : Nat}, configOk s.cfg = true → s.cap.clen.toNat = m + k →
    s.port.stream = List.replicate k .captureTurn →
    ∃ t, Host.Core.run core k (s.withRead m) = .next t ∧ TrainWritten s t := by
  induction k with
  | zero =>
    intro s m _ hm _
    obtain rfl : m = s.cap.clen.toNat := hm.symm
    exact ⟨_, rfl, trainWritten_withRead_clen s⟩
  | succ k ih =>
    intro s m hc hm hs
    obtain ⟨u, hsilent, hturns, hrun⟩ := run_withRead_succ hc (show m < s.cap.clen.toNat by omega) hs
    obtain ⟨t, ht, hwritten⟩ := ih (m := m + 1) (hsilent.block.cfg ▸ hc)
      (by rw [hsilent.block.cap, hm, Nat.add_right_comm, Nat.add_assoc]) hturns
    exact ⟨t, (hrun k).trans ht, hwritten.of_silent hsilent⟩

/-- The turn that reads the length. -/
theorem run_readLen {s : State} {ds : List Delivery} (hc : configOk s.cfg = true)
    (hs : s.port.stream = .captureTurn :: ds) (hsession : s.port.captureSession = .readLen) :
    ∃ u, Silent s u ∧ u.port.stream = ds ∧
      ∀ n, Host.Core.run core (n + 1) s = Host.Core.run core n (u.withRead 0) :=
  ⟨(s.setStream ds).respond s.cap.clen, ⟨⟨rfl, rfl, rfl, rfl, rfl⟩, rfl, rfl⟩, rfl,
    run_of_deliver hc hs (captureTurn_readLen (s := s.setStream ds) hsession)⟩

/-- Settles O59: the length is read, then each sample, and the whole train is written. -/
theorem captureSessionWritesTheTrain : Obligations.CaptureSessionWritesTheTrain := by
  intro s hc _ _ hsession hs
  obtain ⟨u, hsilent, hturns, hrun⟩ := run_readLen hc hs hsession
  obtain ⟨t, ht, hwritten⟩ := run_withRead (m := 0) (hsilent.block.cfg ▸ hc)
    (by rw [hsilent.block.cap, Nat.zero_add]) hturns
  obtain ⟨hblock, hloop, hdiagnostics, houtput⟩ := hwritten.of_silent hsilent
  exact ⟨t, (hrun _).trans ht, hblock, hloop, hdiagnostics, houtput⟩

end Sys2Proof.Machine
end

section
/-! PROOF. Waiting, the capture unit's events in a given order, and what leaves an abort (60_exceptions.md R244, R247,
R256). -/

namespace Sys2Proof.Machine

/-- Settles O9: with no delivery left a step answers the same state. -/
theorem waitingBlockKeepsEveryField : Obligations.WaitingBlockKeepsEveryField := fun _ => step_eq_self

/-! ## The capture unit's events, by whether a cycle is active -/

theorem exec_capCancel_active {s : State} (h : s.cap.active = true) :
    exec .capCancel s = .next ((s.setCap { s.cap with cancelReq := true }).respond 0x0000) := if_pos h

theorem exec_capFault_active {s : State} (h : s.cap.active = true) :
    exec .capFault s = .next ((s.setCap (capAbort .periph s.cap)).respond 0x0000) := if_pos h

/-- Outside an active cycle a fault, a cancel and a tick only answer. -/
theorem exec_captureEvent_inactive {i : Instr} {s : State} (h : s.cap.active = false)
    (hi : i = .capFault ∨ i = .capCancel ∨ ∃ lvl, i = .capTick lvl) : exec i s = .next (s.respond 0x0000) := by
  rcases hi with rfl | rfl | ⟨lvl, rfl⟩
  · exact if_neg (Bool.eq_false_iff.1 h)
  · exact if_neg (Bool.eq_false_iff.1 h)
  · rw [exec_capTick, tickCapture_ignored h]
    rfl

/-! ## The order of a cancel, a fault and a tick (R244) -/

theorem execAll_pair {i j : Instr} {s t u : State} (hi : exec i s = .next t) (hj : exec j t = .next u) :
    execAll [i, j] s = .next u := (execAll_cons hi [j]).trans (execAll_cons hj [])

/-- Settles O42: a requested cancel keeps the cycle active for the fault or the tick that follows, and a fault ends it
before the cancel comes. -/
theorem orderOfSimultaneousEventsDecides : Obligations.OrderOfSimultaneousEventsDecides := by
  intro s lvl hcycle
  have hactive : s.cap.active = true := (active_iff s.cap).2 hcycle
  have hcancel := exec_capCancel_active hactive
  refine ⟨⟨_, execAll_pair hcancel (exec_capFault_active hactive), rfl, rfl⟩,
    ⟨_, execAll_pair (exec_capFault_active hactive) (exec_captureEvent_inactive rfl (.inr (.inl rfl))), rfl, rfl, rfl⟩,
    ⟨_, execAll_pair hcancel (exec_capTick lvl _), ?_⟩⟩
  have hticked := tickCapture_cancelled (c := { s.cap with cancelReq := true }) hactive rfl s.cfg lvl
  exact ⟨congrArg Capture.cstate hticked, congrArg Capture.abortReason hticked⟩

/-! ## The operations that leave an ended cycle and an idle unit as they are (R247) -/

theorem sameBlock_of_read {i : Instr} {s t : State} (h : exec i s = .next t) (hi : i = .capRdstatus ∨ i = .capRdlen ∨
    (∃ idx, i = .capRdsample idx) ∨ i = .repRdstatus ∨ i = .repRdlen) : SameBlock s t := by
  obtain ⟨u, -, -, -, hu, -, hblock, -⟩ := readsHaveNoSideEffects i s hi
  cases hu.symm.trans h
  exact hblock

/-- Outside an active cycle only CAP.ARM changes the capture unit. -/
theorem exec_keeps_inactive {i : Instr} {s t : State} (h : exec i s = .next t) (hfree : s.cap.active = false)
    (hi : i ≠ .capArm) : t.cap = s.cap := by
  cases i with
  | capArm => exact absurd rfl hi
  | capFault | capCancel | capTick lvl =>
    rw [exec_captureEvent_inactive hfree (by simp)] at h
    cases h
    rfl
  | capRdstatus | capRdlen | capRdsample idx => exact (sameBlock_of_read h (by simp)).cap
  | nop | repClear | repPush _ | repStart | repFire | repFault | repRdstatus | repRdlen | pwrSet _ =>
    exact (exec_frame h).1 (by simp [unitOf, opcode])

/-- In IDLE an expiry and a fault only answer. -/
theorem exec_replayEvent_idle {i : Instr} {s : State} (h : s.rep.rstate = .idle) (hi : i = .repFire ∨ i = .repFault) :
    exec i s = .next (s.respond 0x0000) := by
  rw [respond_eq_replayed]
  rcases hi with rfl | rfl
  · exact exec_repFire_idle h
  · exact exec_repFault_idle h

/-- Only REP.START takes the replay unit out of IDLE. -/
theorem exec_keeps_idle {i : Instr} {s t : State} (h : exec i s = .next t) (hidle : s.rep.rstate = .idle)
    (hi : i ≠ .repStart) : t.rep.rstate = .idle := by
  cases i with
  | repStart => exact absurd rfl hi
  | repFire | repFault =>
    rw [exec_replayEvent_idle hidle (by simp)] at h
    cases h
    exact hidle
  | repClear =>
    rw [exec_repClear_idle hidle] at h
    cases h
    exact hidle
  | repPush val =>
    by_cases hfull : s.rep.rlen.toNat = s.cfg.rbufDepth
    · rw [exec_repPush_full hidle hfull] at h
      cases h
      exact hidle
    · rw [exec_repPush_room hidle hfull] at h
      cases h
      exact hidle
  | repRdstatus | repRdlen => exact (sameBlock_of_read h (by simp)).rep ▸ hidle
  | nop | capArm | capCancel | capTick _ | capFault | capRdstatus | capRdlen | capRdsample _ | pwrSet _ =>
    have hrep : t.rep = s.rep := (exec_frame h).2.1 (by simp [unitOf, opcode])
    rw [hrep, hidle]

/-! ## The fresh start (R247) -/

theorem exec_repFault_ends_idle {s t : State} (h : exec .repFault s = .next t) : t.rep.rstate = .idle := by
  by_cases hidle : s.rep.rstate = .idle
  · exact exec_keeps_idle h hidle (by simp)
  · rw [exec_repFault_busy hidle] at h
    cases h
    rfl

/-- What takes the capture unit out of ABORTED starts an empty cycle. -/
theorem CaptureMove.fresh_from_aborted {cfg : Config} {c c' : Capture} (h : CaptureMove cfg c c')
    (haborted : c.cstate = .aborted) (hleft : c'.cstate ≠ .aborted) : c'.cstate = .wait ∧ c'.clen = 0 := by
  have hfree : c.active = false := (not_active_iff c).2 (.inr (.inr haborted))
  cases h with
  | kept => exact absurd haborted hleft
  | armed => exact ⟨rfl, rfl⟩
  | ticked lvl => exact absurd haborted (tickCapture_ignored hfree cfg lvl ▸ hleft)
  | cancelAsked hactive | faulted hactive => cases hactive.symm.trans hfree

/-- What takes the replay unit out of IDLE starts at element 0. -/
theorem ReplayMove.fresh_from_idle {s : State} {r : Replay} {es : List TraceEvent} (h : ReplayMove s r es)
    (hidle : s.rep.rstate = .idle) (hleft : r.rstate ≠ .idle) : r.ridx = 0 := by
  cases h with
  | pairStarted | gapStarted => rfl
  | kept | powered | cleared | overflowed | pushed => exact absurd hidle hleft
  | completed | aborted => exact absurd rfl hleft
  | markEnded hstate | nextPair hstate | lastPair hstate => cases hidle.symm.trans hstate

/-- Settles O41: every operation but the start keeps an aborted cycle and an idle unit, the start begins afresh, and the
exceptional events only answer there. -/
theorem abortsAreLeftOnlyByAFreshStart : Obligations.AbortsAreLeftOnlyByAFreshStart := by
  intro i s t h
  obtain ⟨hcapture, es, hreplay, -⟩ := exec_moves h
  have hfree (haborted : s.cap.cstate = .aborted) : s.cap.active = false :=
    (not_active_iff s.cap).2 (.inr (.inr haborted))
  refine ⟨fun haborted hleft => ⟨?_, hcapture.fresh_from_aborted haborted hleft⟩, fun hi => ?_,
    fun hidle hleft => ⟨?_, hreplay.fresh_from_idle hidle hleft⟩, fun haborted hi => ?_, fun hidle hi => ?_⟩
  · by_contra hi
    exact hleft (exec_keeps_inactive h (hfree haborted) hi ▸ haborted)
  · subst hi
    exact exec_repFault_ends_idle h
  · by_contra hi
    exact hleft (exec_keeps_idle h hidle hi)
  · cases (exec_captureEvent_inactive (hfree haborted) hi).symm.trans h
    exact sameBlock_respond s 0
  · cases (exec_replayEvent_idle hidle hi).symm.trans h
    exact sameBlock_respond s 0

end Sys2Proof.Machine
end

section
/-! PROOF. The carrier waveform (60_exceptions.md R251). -/

namespace Sys2Proof.Machine

theorem waveActive_add_period (c : Config) (phase t : Nat) :
    waveActive c phase (t + c.carrierPeriodUnits) = waveActive c phase t := by
  simp [waveActive, ← Nat.add_assoc]

theorem waveLevel_enabled (c : Config) (phase t : Nat) : waveLevel c true phase t =
    if waveActive c phase t then decide (c.carrierPolarity = .normal) else decide (c.carrierPolarity = .inverted) := by
  cases hpol : c.carrierPolarity <;> simp [waveLevel, hpol]

theorem waveLevel_disabled (c : Config) (phase t : Nat) :
    waveLevel c false phase t = decide (c.carrierPolarity = .inverted) := by
  cases hpol : c.carrierPolarity <;> simp [waveLevel, hpol]

/-- In the period that starts at 0 the active units are the first `d`. -/
theorem count_mod_lt {a d : Nat} (h : d ≤ a) : a.count (fun n => n % a < d) = d := by
  have hfirst : (Finset.range a).filter (fun n => n % a < d) = Finset.range d := by
    ext n
    simp only [Finset.mem_filter, Finset.mem_range]
    refine ⟨fun ⟨hn, hd⟩ => Nat.mod_eq_of_lt hn ▸ hd, fun hn => ?_⟩
    have hna : n < a := hn.trans_le h
    exact ⟨hna, by rwa [Nat.mod_eq_of_lt hna]⟩
  rw [Nat.count_eq_card_filter_range, hfirst, Finset.card_range]

theorem multisetIco_add (n a : Nat) : Multiset.Ico n (n + a) = (List.range a).map (n + ·) := by
  calc Multiset.Ico n (n + a) = List.range' n (n + a - n) := rfl
    _ = (List.range a).map (n + ·) := by rw [Nat.add_sub_cancel_left, List.range'_eq_map_range]

/-- A window of one period holds as many active units wherever it starts. -/
theorem length_filter_mod_lt {a d : Nat} (h : d ≤ a) (n : Nat) :
    ((List.range a).filter fun k => decide ((n + k) % a < d)).length = d := by
  have hperiodic : Function.Periodic (fun m => m % a < d) a := (Nat.periodic_mod a).comp (· < d)
  have hwindow := Nat.filter_multiset_Ico_card_eq_of_periodic n a _ hperiodic
  rw [count_mod_lt h, multisetIco_add, Multiset.filter_coe, Multiset.coe_card, List.filter_map,
    List.length_map] at hwindow
  exact hwindow

/-- Settles O60: the active units of the period from any `t` are those of the first period, and the polarity names the
level. -/
theorem carrierWaveformHasTheConfiguredDuty : Obligations.CarrierWaveformHasTheConfiguredDuty := by
  intro c phase t hc
  have hduty : c.dutyOnUnits ≤ c.carrierPeriodUnits := ((configOk_iff c).1 hc).dutyOnUnits
  refine ⟨?_, ?_, waveLevel_enabled c phase t, waveLevel_disabled c phase t⟩
  · rw [waveLevel_enabled, waveLevel_enabled, waveActive_add_period]
  · simpa only [waveActive, Nat.add_assoc] using length_filter_mod_lt hduty (phase + t)

end Sys2Proof.Machine
end

section
/-! PROOF. What the reset event keeps, and that the state right after reset is sound (70_reset_and_hazards.md R270). -/

namespace Sys2Proof.Machine

theorem State.setStream_port (s : State) (ds : List Delivery) :
    (s.setStream ds).port = { s.port with stream := ds } := rfl

/-- Settles O12: the delivered reset event is `resetBlock`, which keeps the port the delivery was taken from and the draw
counter. -/
theorem resetKeepsTheInterface : Obligations.ResetKeepsTheInterface := by
  intro s ds hc hs
  refine ⟨(s.setStream ds).resetBlock, step_eq_deliver hc hs, ?_, ?_⟩
  · rw [State.resetBlock_port, State.setStream_port]
  · rw [State.resetBlock_draws, State.setStream_draws]

/-- Settles O34: after reset both units are empty and the trace holds no event, which meets each part of the invariant. -/
theorem resetStatesAreSound : Obligations.ResetStatesAreSound :=
  fun _ hc => State.resetWith_inv hc

end Sys2Proof.Machine
end
